-- ==== Sys2Proof/Word.lean ====
section
/-! DEFINITION. The two word types of the part: the byte that one memory access moves (R157) and the stop
image, one bit for each of 384 stops (00_scope.md, Stop images). -/

namespace Sys2Proof

/-- One byte: what one access over the memory port moves (R157). -/
abbrev Byte := BitVec 8

/-- A stop image: bit `s` stands for stop `s`, a set bit means the stop is on (00_scope.md, Stop images). -/
abbrev StopImage := BitVec 384

end Sys2Proof
end

