-- ==== Sys2Proof/Config.lean ====
section
/-! DEFINITION. What is fixed for the machine as a whole: capacities that the rules state, the one value that the manual
leaves to the console memory's own power-up, and the one free value: the result value that the rules do not give. -/

namespace Sys2Proof.Config

/-- DESIGN CHOICE, unsafe (log entry 1): what a byte of console memory that nothing has written reads as.
The spec says only that such memory "holds whatever console memory holds" (R39, R136). -/
def powerOnByte : Byte := 0

/-- The result value of a request that is completed with a result to which the rules give no value: FULL of the
step-request list (R62), EMPTY, CORRUPT, LOCKED and DISABLED of an action (R46), RANGE of a SEQ_SET (R67). A FREE VALUE:
nothing constrains it, and it may differ with the cell and with the console clock at the completion (DESIGN CHOICE,
safe; log entry 36). -/
opaque unstatedValue (cell : Option Nat) (clock : BitVec 32) : BitVec 32

/-- Stops a stop image has room for (00_scope.md, Stop images). -/
def maxStops : Nat := 384

/-- Records the action queue holds at most (R44). -/
def actionQueueSize : Nat := 8

/-- Requests the Sequencer's step-request list holds at most (R62). -/
def stepListSize : Nat := 4

/-- Snapshots the undo stack holds at most (R57). -/
def undoDepth : Nat := 4

/-- Entries the Journal Writer's entry list holds at most (R147). -/
def entryListSize : Nat := 16

/-- Entries of the journal ring (R146). -/
def journalSize : Nat := 256

/-- Commands a board's outgoing list holds at most (R103, R129). -/
def outgoingListSize : Nat := 8

/-- Motion entries that may be SENT or PULSING at once (R102, R103). -/
def maxEnergised : Nat := 48

/-- Request cells of the request board (R136). -/
def cellCount : Nat := 32

/-- Bytes of console memory: 2 MiB, 21 address lines (00_scope.md; 11, Pins and the serial peripheral port). -/
def memorySize : Nat := 2097152

end Sys2Proof.Config
end

