-- ==== Sys2Proof/Syntax.lean ====
section
/-! DEFINITION. The commands: one constructor for each row of spec/opcode_table.json. A row that comes from
outside the part (a register transfer, a frame's end, a reply, a write of console memory) carries what came;
a row that is the part's own event (a read that completes, an action taken from the head of a queue) carries
nothing, for the state says which one it is. -/

namespace Sys2Proof

/-- A command of the block: one row of spec/opcode_table.json. -/
inductive Instr where
  /-- HARD_RESET (R155): RESET# goes low. -/
  | hardReset
  /-- RESET_RELEASE (R155): RESET# goes high. -/
  | resetRelease
  /-- RUN_SET (R154): a CONTROL write of these 16 bits, RUN = 1 and RESET = 0. -/
  | runSet (data : BitVec 16)
  /-- RUN_CLEAR (R154): a CONTROL write of these 16 bits, RUN = 0 and RESET = 0. -/
  | runClear (data : BitVec 16)
  /-- RESET (R154): a CONTROL write of these 16 bits, RESET = 1. -/
  | reset (data : BitVec 16)
  /-- ATTN_EN (R152): a CONTROL write of these 16 bits, RESET = 0, for the sake of ATTN_EN. -/
  | attnEn (data : BitVec 16)
  /-- ATTENTION (R137): a write of these 16 bits to the ATTENTION register. -/
  | attention (data : BitVec 16)
  /-- CAUSE_READ (R151): a read of the CAUSE register. -/
  | causeRead
  /-- MASK_WRITE (R152): a write of these 16 bits to the MASK register. -/
  | maskWrite (data : BitVec 16)
  /-- IGNORED_REGISTER_WRITE (R153): a write of these 16 bits to a register address that ignores writes. -/
  | ignoredRegisterWrite (addr : BitVec 3) (data : BitVec 16)
  /-- DESCRIPTION_READ_COMPLETION (R1): a field read of the load completes. -/
  | descriptionReadCompletion
  /-- ROUND_START (R125): the console clock reaches the round due time. -/
  | roundStart
  /-- REQUEST_FRAME_SENT (R119): the last byte of a request frame has been sent; `received` says whether the
  board it is addressed to received it whole (a frame may be lost or damaged on the line, R121). -/
  | requestFrameSent (received : Bool)
  /-- REPLY_RECEIVED (R126): these bytes have been read in the reply window. -/
  | replyReceived (bytes : List Byte)
  /-- REPLY_TIMEOUT (R119): no reply byte arrived within the reply timeout. -/
  | replyTimeout
  /-- SHORT_REPLY (R120): the line fell idle in mid-reply. -/
  | shortReply
  /-- PULSE_END (R108): the console clock reaches the expiry of this stop's PULSING entry. -/
  | pulseEnd (stop : Nat)
  /-- SETTLE_END (R109): the console clock reaches the expiry of this stop's SETTLING entry. -/
  | settleEnd (stop : Nat)
  /-- RECALL (R47): the Combination Engine takes a RECALL from the head of the action queue. -/
  | recall
  /-- CAPTURE (R52): the Combination Engine takes a CAPTURE. -/
  | capture
  /-- CANCEL (R53): the Combination Engine takes a CANCEL. -/
  | cancel
  /-- TUTTI (R54): the Combination Engine takes a TUTTI. -/
  | tutti
  /-- TUTTI_CAPTURE (R55): the Combination Engine takes a TUTTI_CAPTURE. -/
  | tuttiCapture
  /-- REVERSE (R56): the Combination Engine takes a REVERSE. -/
  | reverse
  /-- STOP_SET (R56): the Combination Engine takes a STOP_SET. -/
  | stopSet
  /-- UNDO (R58): the Combination Engine takes an UNDO. -/
  | undo
  /-- RECALL_SLOT_READ_COMPLETION (R47): the read of a recall's slot completes. -/
  | recallSlotReadCompletion
  /-- FOLLOW_SLOT_READ_COMPLETION (R49): the read of a follow's slot completes. -/
  | followSlotReadCompletion
  /-- LOCK_BYTE_READ_COMPLETION (R52): the read of a capture's lock byte completes. -/
  | lockByteReadCompletion
  /-- SLOT_WRITE_COMPLETION (R41): the status byte of a capture's slot has been written. -/
  | slotWriteCompletion
  /-- TUTTI_SLOT_READ_COMPLETION (R54): the re-read of the tutti slot completes. -/
  | tuttiSlotReadCompletion
  /-- TUTTI_CAPTURE_WRITE_COMPLETION (R55): the status byte of the tutti slot has been written. -/
  | tuttiCaptureWriteCompletion
  /-- RUNNING_TUTTI_READ_COMPLETION (R20): the tutti slot read made at entry to RUNNING completes. -/
  | runningTuttiReadCompletion
  /-- LOCK_LEVEL_WRITE_COMPLETION (R43): the write of a LOCK_LEVEL lock byte completes. -/
  | lockLevelWriteCompletion
  /-- NEXT (R63): the Sequencer takes a NEXT from its step-request list. -/
  | next
  /-- PREV (R64): the Sequencer takes a PREV. -/
  | prev
  /-- SEQ_SET (R67): the Sequencer takes a SEQ_SET. -/
  | seqSet
  /-- LENGTH_WORD_READ_COMPLETION (R63): the read of the sequence length word completes. -/
  | lengthWordReadCompletion
  /-- STEP_READ_COMPLETION (R65): the read of the target step completes. -/
  | stepReadCompletion
  /-- PROGRAM_READ_COMPLETION (R78): a field read of a crescendo program load completes. -/
  | programReadCompletion
  /-- SWEEP_STATE_READ_COMPLETION (R137): the sweep's read of a cell's state byte completes. -/
  | sweepStateReadCompletion
  /-- CELL_READ_COMPLETION (R138): the reads of a POSTED cell's kind and arguments complete. -/
  | cellReadCompletion
  /-- CELL_COMPLETION_WRITE (R140): the DONE write of the oldest completion finishes. -/
  | cellCompletionWrite
  /-- RECALL_REQUEST (R142): an accepted RECALL request is handed to the Combination Engine. -/
  | recallRequest
  /-- CAPTURE_REQUEST (R142): an accepted CAPTURE request is handed on. -/
  | captureRequest
  /-- CANCEL_REQUEST (R142): an accepted CANCEL request is handed on. -/
  | cancelRequest
  /-- TUTTI_REQUEST (R142): an accepted TUTTI request is handed on. -/
  | tuttiRequest
  /-- UNDO_REQUEST (R142): an accepted UNDO request is handed on. -/
  | undoRequest
  /-- STOP_SET_REQUEST (R142): an accepted STOP_SET request is handed on. -/
  | stopSetRequest
  /-- SELECT_LEVEL (R42): an accepted SELECT_LEVEL request is taken. -/
  | selectLevel
  /-- LOCK_LEVEL (R43): an accepted LOCK_LEVEL request is taken. -/
  | lockLevel
  /-- SEQ_SET_REQUEST (R62): an accepted SEQ_SET request is handed to the Sequencer. -/
  | seqSetRequest
  /-- SEQ_STEP (R62): an accepted SEQ_STEP request is handed to the Sequencer. -/
  | seqStep
  /-- CRESC_PROGRAM (R78): an accepted CRESC_PROGRAM request is taken. -/
  | crescProgram
  /-- CRESC_CALIBRATE (R81): an accepted CRESC_CALIBRATE request is taken. -/
  | crescCalibrate
  /-- CAPTURE_SETUP (R51): an accepted CAPTURE_SETUP request is taken. -/
  | captureSetup
  /-- CLEAR_FAULTS (R115): an accepted CLEAR_FAULTS request is taken. -/
  | clearFaults
  /-- CLEAR_COUNTERS (R133): an accepted CLEAR_COUNTERS request is taken. -/
  | clearCounters
  /-- RELOAD (R144): a RELOAD request is taken. -/
  | reload
  /-- CONSUMED_COUNT_READ_COMPLETION (R147): the Journal Writer's read of the consumed count completes. -/
  | consumedCountReadCompletion
  /-- JOURNAL_ENTRY_WRITE_COMPLETION (R147): all 16 bytes of a journal entry have been written. -/
  | journalEntryWriteCompletion
  /-- WRITTEN_COUNT_WRITE_COMPLETION (R147): the write of the advanced written count completes. -/
  | writtenCountWriteCompletion
  /-- LOST_COUNT_WRITE_COMPLETION (R147): a write of the lost count mirror completes. -/
  | lostCountWriteCompletion
  /-- IMAGE_MIRROR_UPDATE (R36): an update of the image mirrors finishes. -/
  | imageMirrorUpdate
  /-- CRESCENDO_MIRROR_UPDATE (R83): an update of the crescendo mirrors finishes. -/
  | crescendoMirrorUpdate
  /-- MOTION_MIRROR_UPDATE (R116): an update of the motion mirrors finishes. -/
  | motionMirrorUpdate
  /-- LINK_MIRROR_UPDATE (R134): an update of the link mirrors finishes. -/
  | linkMirrorUpdate
  /-- ERROR_REPORT_WRITE_COMPLETION (R13): the writes of a failed load's error report complete. -/
  | errorReportWriteCompletion
  /-- JOURNAL_HEADER_CLEAR_WRITE_COMPLETION (R149): the zero writes of the first entry to LOADING complete. -/
  | journalHeaderClearWriteCompletion
  /-- CONSOLE_PROCESSOR_WRITE (R136): the console processor writes these bytes from this address upwards. -/
  | consoleProcessorWrite (addr : BitVec 21) (bytes : List Byte)
  deriving DecidableEq, Repr

end Sys2Proof
end

