-- ==== Sys2Proof/WellFormed.lean ====
section
/-! DEFINITION. When a command is one that its row of the table can carry. The meanings do not rest on it:
they are total, and an ill-formed command is what it spells. -/

namespace Sys2Proof

/-- The operands that a command's row admits: the CONTROL bits that tell RUN_SET, RUN_CLEAR, RESET and ATTN_EN
apart (R154, R165), the register addresses that ignore a write (R153), the two reply lengths (R164), a stop
number (00_scope.md, Numbering), and a field that lies inside console memory (R159). -/
def Instr.wellFormed : Instr → Bool
  | .runSet data => data.getLsbD 0 && !data.getLsbD 1
  | .runClear data => !data.getLsbD 0 && !data.getLsbD 1
  | .reset data => data.getLsbD 1
  | .attnEn data => !data.getLsbD 1
  | .ignoredRegisterWrite addr _ => addr != 2 && addr != 3 && addr != 5
  | .replyReceived bytes => bytes.length == 18 || bytes.length == 20
  | .pulseEnd stop => decide (stop < Config.maxStops)
  | .settleEnd stop => decide (stop < Config.maxStops)
  | .consoleProcessorWrite addr bytes =>
      !bytes.isEmpty && decide (addr.toNat + bytes.length ≤ Config.memorySize)
  | .hardReset | .resetRelease | .attention _ | .causeRead | .maskWrite _
  | .descriptionReadCompletion | .roundStart | .requestFrameSent _ | .replyTimeout | .shortReply
  | .recall | .capture | .cancel | .tutti | .tuttiCapture | .reverse | .stopSet | .undo
  | .recallSlotReadCompletion | .followSlotReadCompletion | .lockByteReadCompletion
  | .slotWriteCompletion | .tuttiSlotReadCompletion | .tuttiCaptureWriteCompletion
  | .runningTuttiReadCompletion | .lockLevelWriteCompletion
  | .next | .prev | .seqSet | .lengthWordReadCompletion | .stepReadCompletion
  | .programReadCompletion | .sweepStateReadCompletion | .cellReadCompletion | .cellCompletionWrite
  | .recallRequest | .captureRequest | .cancelRequest | .tuttiRequest | .undoRequest | .stopSetRequest
  | .selectLevel | .lockLevel | .seqSetRequest | .seqStep | .crescProgram | .crescCalibrate
  | .captureSetup | .clearFaults | .clearCounters | .reload
  | .consumedCountReadCompletion | .journalEntryWriteCompletion | .writtenCountWriteCompletion
  | .lostCountWriteCompletion | .imageMirrorUpdate | .crescendoMirrorUpdate | .motionMirrorUpdate
  | .linkMirrorUpdate | .errorReportWriteCompletion | .journalHeaderClearWriteCompletion => true

end Sys2Proof
end

