-- ==== Sys2Proof/Decode.lean ====
section
/-! DEFINITION. The command that a word spells by the table's bits (no row of this block's table gives bits),
and the command that a transfer on the serial peripheral port spells (R165). -/

namespace Sys2Proof

/-- The table gives no row any bits ("fields" is empty in every row), so no word spells a command. -/
def decodeTableWord (_nbits _w : Nat) : Option Instr := none

/-- A CONTROL write as a command (R154, R165): RESET first, then RUN. -/
def decodeControlWrite (data : BitVec 16) : Instr :=
  if data.getLsbD 1 then .reset data
  else if data.getLsbD 0 then .runSet data
  else .runClear data

/-- The command of a transfer on the serial peripheral port: an address byte, whose bit 7 is 1 for a read and 0
for a write and whose bits 0 to 2 are the register address, then the data, high byte first (R165). A read of a
register other than CAUSE changes nothing and is no row of the table (R153). -/
def decodeTransfer (address high low : Byte) : Option Instr :=
  let register := address.extractLsb' 0 3
  let data := high ++ low
  if address.getLsbD 7 then
    if register = 4 then some .causeRead else none
  else if register = 2 then some (decodeControlWrite data)
  else if register = 3 then some (.attention data)
  else if register = 5 then some (.maskWrite data)
  else some (.ignoredRegisterWrite register data)

end Sys2Proof
end

