-- ==== Sys2Proof/Machine/State.lean ====
section
/-! DEFINITION. The state of the part as plain data, block by block as 00_scope.md names the blocks, the console
memory and the boards' side of the jamb link beside it, and the state after reset. -/

namespace Sys2Proof.Machine

/-! ### Part state, attention logic and memory port -/

/-- The part states of 11_register_window_and_start_up.md. -/
inductive PartState where
  | halted | loading | descError | census | running
  deriving DecidableEq, Repr, Inhabited

/-- The load cause recorded at entry to LOADING (R1). -/
inductive LoadCause where
  | hard | soft | reload
  deriving DecidableEq, Repr, Inhabited

/-- The origins of R148; `none` is the code 0xFF, no press and no request. -/
inductive Origin where
  | thumb | toe | sequencer | consoleProcessor | follow | none
  deriving DecidableEq, Repr, Inhabited

/-- The nine blocks that reach console memory over the memory port (R158), in the order the rule names them. -/
inductive Block where
  | dl | ce | sq | cu | ru | ms | lc | rs | jw
  deriving DecidableEq, Repr, Inhabited

/-- What a write access is for; a completion command waits for the writes of one purpose. -/
inductive Purpose where
  /-- a mirror in the status area -/
  | mirror
  /-- a slot byte of a capture (R41) -/
  | slot
  /-- the lock byte of a LOCK_LEVEL (R43) -/
  | lock
  /-- the ACCEPTED byte of a request cell (R138) -/
  | accept
  /-- the result fields and DONE of a request cell (R140) -/
  | complete
  /-- a journal entry (R147) -/
  | entry
  /-- the journal's written count (R147) -/
  | written
  /-- the lost count mirror (R147) -/
  | lost
  /-- the zero writes of the first entry to LOADING (R149) -/
  | clear
  /-- the error report of a failed load (R13) -/
  | report
  deriving DecidableEq, Repr, Inhabited

/-- One access of one byte that waits for the memory port (R157, R158). -/
inductive Access where
  | read (addr : Nat)
  | write (purpose : Purpose) (addr : Nat) (byte : Byte)
  deriving DecidableEq, Repr, Inhabited

/-- One block's side of the memory port: the accesses it waits with, in the order it makes them, and the bytes
its read in progress has taken so far. -/
structure BlockPort where
  queue : List Access := []
  buf : List Byte := []
  deriving DecidableEq, Repr, Inhabited

/-- The memory port (R158): the block it served last and each block's waiting accesses. -/
structure Port where
  served : Block := .jw
  dl : BlockPort := {}
  ce : BlockPort := {}
  sq : BlockPort := {}
  cu : BlockPort := {}
  ru : BlockPort := {}
  ms : BlockPort := {}
  lc : BlockPort := {}
  rs : BlockPort := {}
  jw : BlockPort := {}
  deriving DecidableEq, Repr, Inhabited

/-- Console memory as (address, byte) pairs, addresses strictly rising, no byte equal to
`Config.powerOnByte` listed (log entry 1). -/
abbrev Memory := List Host.Cell

/-- A guarded mirror group (R36, R83, R116, R134): its count as the owner holds it, the stale mark, whether an
update is in progress, whether the next update is the full one of an entry to LOADING, and the values the
previous update wrote. -/
structure Mirror (V : Type) where
  count : BitVec 32 := 0
  stale : Bool := false
  updating : Bool := false
  full : Bool := false
  shadow : V
  deriving DecidableEq, Repr, Inhabited

/-! ### The console description (01_stops_divisions_and_the_console_description.md) -/

/-- The header (R2, R160). -/
structure Header where
  stops : Nat := 0
  divisions : Nat := 0
  boards : Nat := 0
  generals : Nat := 0
  startLevel : Nat := 0
  levels : Nat := 0
  pistons : Nat := 0
  budget : Nat := 0
  roundPeriod : Nat := 0
  replyTimeout : Nat := 0
  filterShift : Nat := 0
  hysteresis : Nat := 0
  lo : Nat := 0
  hi : Nat := 0
  startProgram : Nat := 0
  tuttiLock : Bool := false
  captureEnable : Bool := false
  captureScope : Byte := 0
  deriving DecidableEq, Repr, Inhabited

/-- A division record (R4). -/
structure DivisionRec where
  pistons : Nat := 0
  follow : Option Nat := none
  deriving DecidableEq, Repr, Inhabited

/-- The kinds of a board record (R5). -/
inductive BoardKind where
  | none | jamb | chest
  deriving DecidableEq, Repr, Inhabited

/-- A board record (R5). -/
structure BoardRec where
  kind : BoardKind := .none
  contacts : Nat := 0
  coils : Nat := 0
  lamps : Nat := 0
  shoe : Bool := false
  chestBits : Nat := 0
  deriving DecidableEq, Repr, Inhabited

/-- The kinds of a stop (R6). -/
inductive StopKind where
  | moved | lit
  deriving DecidableEq, Repr, Inhabited

/-- A stop record (R6, R7, R8); the fields a LIT stop's record does not have read 0. -/
structure StopRec where
  kind : StopKind := .moved
  division : Nat := 0
  board : Nat := 1
  contact : Nat := 0
  coil : Nat := 0
  currentClass : Nat := 0
  pulse : Nat := 0
  settle : Nat := 0
  depth : Nat := 1
  exempt : Bool := false
  lamp : Option Nat := none
  /-- chest board and chest bit -/
  chest : Option (Nat × Nat) := none
  deriving DecidableEq, Repr, Inhabited

/-- The functions of a piston map entry, with their arguments (R9). -/
inductive PistonFunction where
  | general (n : Nat)
  | divisional (d p : Nat)
  | cancel | set | next | prev | levelUp | levelDown | tutti | undo
  | reversible (stop : Nat)
  deriving DecidableEq, Repr, Inhabited

/-- A piston map entry (R9). -/
structure PistonRec where
  board : Nat := 1
  contact : Nat := 0
  function : PistonFunction := .set
  origin : Origin := .thumb
  depth : Nat := 1
  deriving DecidableEq, Repr, Inhabited

/-- The working copy of the console description. -/
structure Desc where
  header : Header := {}
  divisions : List DivisionRec := []
  /-- the record of board address a is the one at place a − 1 -/
  boards : List BoardRec := []
  stops : List StopRec := []
  pistons : List PistonRec := []
  deriving DecidableEq, Repr, Inhabited

/-- What field of a crescendo program is read next (R76). -/
inductive ProgramField where
  | stageCount
  | stopCount
  /-- a stop number, with how many are left in the stage record -/
  | stopNumber (left : Nat)
  deriving DecidableEq, Repr, Inhabited

/-- A crescendo program being read field by field (R10, R78): the next field and its offset in the program, the
stage count once read, the stage records read whole, and the stops of the one being read. -/
structure ProgramRead where
  field : ProgramField := .stageCount
  offset : Nat := 0
  total : Nat := 0
  stages : List (List Nat) := []
  current : List Nat := []
  deriving DecidableEq, Repr, Inhabited

/-- The record the Description Loader is reading (R12, R160). -/
inductive LoadPlace where
  | header
  | division (d : Nat)
  /-- the board record at place i, of address i + 1 -/
  | board (i : Nat)
  | stop (i : Nat)
  | piston (i : Nat)
  | program (p : Nat) (read : ProgramRead)
  deriving DecidableEq, Repr, Inhabited

/-- A load in progress: the record being read, the fields of it read so far, the working copy as far as its
records have passed, and the contents of the program that R15 makes active once they have been read. -/
structure Load where
  place : LoadPlace := .header
  fields : List Nat := []
  copy : Desc := {}
  program : List (List Nat) := []
  deriving DecidableEq, Repr, Inhabited

/-- What the Description Loader is doing. -/
inductive LoaderPhase where
  | idle
  | reading (load : Load)
  /-- a check has failed and the report is being written; the cell of a RELOAD whose completion must also be
  written before DESC_ERROR (R13) -/
  | reporting (cell : Option Nat)
  /-- the report is written, this cell's completion is not (R13) -/
  | awaitingCell (cell : Nat)
  deriving DecidableEq, Repr, Inhabited

/-- The Description Loader (R1, R13, R16). -/
structure Loader where
  /-- the working copy is valid -/
  valid : Bool := false
  copy : Desc := {}
  errorCode : Nat := 0
  recordClass : Nat := 0
  recordIndex : Nat := 0
  loadCause : Option LoadCause := none
  /-- a load has succeeded since the last hard reset (R1, R155) -/
  loadedOnce : Bool := false
  phase : LoaderPhase := .idle
  deriving DecidableEq, Repr, Inhabited

/-! ### Combination Engine (03_combination_memory_and_actions.md) -/

/-- The state of a TUTTI action (R44). -/
inductive TuttiState where
  | off | on | toggle
  deriving DecidableEq, Repr, Inhabited

/-- The kind of an action with the fields it carries (R44). -/
inductive ActionKind where
  | recall (level piston : Nat)
  | capture (level piston : Nat)
  | cancel
  | tutti (state : TuttiState)
  | tuttiCapture
  | reverse (stop : Nat)
  | stopSet (stop : Nat) (state : Bool)
  | undo
  deriving DecidableEq, Repr, Inhabited

/-- An action record (R44). -/
structure Action where
  kind : ActionKind
  origin : Origin
  cell : Option Nat := none
  deriving DecidableEq, Repr, Inhabited

/-- The slot access the engine has in flight (R45). -/
inductive EngineJob where
  /-- the tutti read at entry to RUNNING (R20) -/
  | runningTuttiRead
  | recallRead (action : Action) (level piston : Nat)
  /-- the follow of division `division` at slot index `index`; `moves` are those of the main recall (R49) -/
  | followRead (action : Action) (level division index moves : Nat)
  /-- `scope` is the scope the capture will write, as it stood when the CAPTURE was taken (R51) -/
  | lockRead (action : Action) (level piston : Nat) (scope : Byte)
  | slotWrite (action : Action) (level piston : Nat) (scope : Byte) (check : BitVec 16)
  | tuttiRead (action : Action)
  | tuttiWrite (action : Action) (image : StopImage) (check : BitVec 16)
  deriving DecidableEq, Repr, Inhabited

/-- The engine states (R45). -/
inductive EngineState where
  | idle | reading | writing
  deriving DecidableEq, Repr, Inhabited

/-- The Combination Engine (R42, R44, R45, R51, R57, R20). -/
structure Combination where
  level : Nat := 0
  captureEnable : Bool := false
  captureScope : Byte := 0
  /-- the action queue, oldest first -/
  queue : List Action := []
  /-- what the engine has in flight; `none` is IDLE -/
  job : Option EngineJob := none
  /-- the undo stack, newest on top -/
  undo : List StopImage := []
  /-- the tutti image TI -/
  ti : StopImage := 0
  /-- LOCK_LEVEL writes in progress, oldest first: the request cell and the value (R43) -/
  locks : List (Nat × Nat) := []
  deriving DecidableEq, Repr, Inhabited

/-! ### Sequencer (04_the_sequencer.md) -/

/-- What a step request asks (R62, R67). -/
inductive StepKind where
  | next
  | prev
  /-- the position argument: 0xFFFF for NONE, or a step number -/
  | set (position : Nat)
  deriving DecidableEq, Repr, Inhabited

/-- A request of the step-request list (R62). -/
structure StepRequest where
  kind : StepKind
  origin : Origin
  cell : Option Nat := none
  deriving DecidableEq, Repr, Inhabited

/-- The reads of a step request that is FETCHING (R62). -/
inductive SequencerJob where
  | lengthRead (request : StepRequest)
  | stepRead (request : StepRequest) (target : Nat)
  deriving DecidableEq, Repr, Inhabited

/-- The Sequencer (R61, R62). -/
structure Sequencer where
  /-- the sequence position; `none` is NONE -/
  position : Option Nat := none
  /-- the step-request list, oldest first -/
  list : List StepRequest := []
  /-- what is FETCHING; `none` is IDLE -/
  job : Option SequencerJob := none
  deriving DecidableEq, Repr, Inhabited

/-! ### Crescendo Unit (05_the_crescendo.md) -/

/-- The signal state with the filtered value F, in sixteenths of a raw count, which NONE leaves unset (R70). -/
inductive Signal where
  | none
  | live (f : Nat)
  | held (f : Nat)
  deriving DecidableEq, Repr, Inhabited

/-- A program load in progress (R78): the program's number, the request cell, and the read. -/
structure ProgramLoad where
  program : Nat
  cell : Nat
  read : ProgramRead := {}
  deriving DecidableEq, Repr, Inhabited

/-- The values of the crescendo mirrors (R83). -/
structure CrescendoValues where
  signal : Nat := 0
  f : Nat := 0
  q : Nat := 0
  stage : Nat := 0
  program : Nat := 0xFF
  stageCount : Nat := 0
  lo : Nat := 0
  hi : Nat := 0
  loading : Nat := 0xFF
  deriving DecidableEq, Repr, Inhabited

/-- The Crescendo Unit (R69 to R84). -/
structure Crescendo where
  signal : Signal := .none
  q : Nat := 0
  stage : Nat := 0
  /-- the active program's number; `none` before the first load -/
  program : Option Nat := none
  /-- the active program's stage count S -/
  stageCount : Nat := 0
  /-- CRI(0) to CRI(S) -/
  images : List StopImage := []
  lo : Nat := 0
  hi : Nat := 0
  loading : Option ProgramLoad := none
  mirror : Mirror CrescendoValues := { shadow := {} }
  deriving DecidableEq, Repr, Inhabited

/-! ### Contact Scanner (06_contact_sensing_and_piston_decoding.md) -/

/-- What the Contact Scanner holds for one contact (R85); an unwatched contact keeps the values of reset
(log entry 33). -/
structure Contact where
  /-- accepted level, closed or open -/
  closed : Bool := false
  /-- run counter -/
  run : Nat := 0
  armed : Bool := false
  deriving DecidableEq, Repr, Inhabited

/-- The 64 contacts of one board. -/
abbrev ContactBank := Vector Contact 64

/-- The Contact Scanner (R18, R85): the contacts of the boards of address 1 to 16, and CI. -/
structure Scanner where
  contacts : Vector ContactBank 16 := Vector.replicate 16 (Vector.replicate 64 {})
  ci : StopImage := 0
  deriving DecidableEq, Repr, Inhabited

/-! ### Registration Unit (02_registration_images.md) -/

/-- The values of the image mirrors (R36). -/
structure ImageValues where
  ri : StopImage := 0
  ci : StopImage := 0
  si : StopImage := 0
  ti : StopImage := 0
  tutti : Bool := false
  deriving DecidableEq, Repr, Inhabited

/-- The Registration Unit (R17, R19, R22, R36). -/
structure Registration where
  ri : StopImage := 0
  si : StopImage := 0
  tutti : Bool := false
  mirror : Mirror ImageValues := { shadow := {} }
  deriving DecidableEq, Repr, Inhabited

/-! ### Motion Scheduler (07_stop_motion.md) -/

/-- The state of a motion entry, with its timer expiry where it has one (R98). -/
inductive EntryState where
  | queued
  | sent
  | pulsing (expiry : BitVec 32)
  | settling (expiry : BitVec 32)
  deriving DecidableEq, Repr, Inhabited

/-- A motion entry (R98). -/
structure MotionEntry where
  stop : Nat
  /-- on (drawn) or off (retired) -/
  target : Bool
  state : EntryState := .queued
  retried : Bool := false
  reaim : Bool := false
  deriving DecidableEq, Repr, Inhabited

/-- The values of the motion mirrors (R116). -/
structure MotionValues where
  length : Nat := 0
  energised : Nat := 0
  committed : Nat := 0
  head : Nat := 0xFFFF
  fault : StopImage := 0
  unreachable : StopImage := 0
  deriving DecidableEq, Repr, Inhabited

/-- The Motion Scheduler (R98 to R118). -/
structure Motion where
  /-- the motion queue, oldest first -/
  queue : List MotionEntry := []
  committed : Nat := 0
  energised : Nat := 0
  fault : StopImage := 0
  /-- every flag is set at reset (R118; log entry 20) -/
  unreachable : StopImage := BitVec.allOnes 384
  /-- adoption flags of the boards of address 1 to 16 -/
  adopted : Vector Bool 16 := Vector.replicate 16 false
  /-- a motion fault declared since the last update began (R117; log entry 14) -/
  declared : Bool := false
  /-- a motion fault that the update in progress shows (R117) -/
  showing : Bool := false
  mirror : Mirror MotionValues := { shadow := {} }
  deriving DecidableEq, Repr, Inhabited

/-! ### Link Controller (08_the_jamb_link.md) -/

/-- The states of a described board (R122). -/
inductive BoardState where
  | unknown | present | suspect | absent | mismatch
  deriving DecidableEq, Repr, Inhabited

/-- The mismatch reasons (R122). -/
inductive MismatchReason where
  | none | kind | count | shoe
  deriving DecidableEq, Repr, Inhabited

/-- A coil command (R102), with the stop whose entry it serves. -/
structure CoilCommand where
  stop : Nat
  coil : Nat
  on : Bool
  pulse : Nat
  deriving DecidableEq, Repr, Inhabited

/-- The open frame of a board (R127): its toggle and the coil commands it carries. -/
structure OpenFrame where
  toggle : Bool
  commands : List CoilCommand
  deriving DecidableEq, Repr, Inhabited

/-- What the Link Controller holds for one board address. -/
structure BoardLink where
  state : BoardState := .unknown
  toggle : Bool := false
  openFrame : Option OpenFrame := none
  /-- the outgoing list, oldest first -/
  outgoing : List CoilCommand := []
  missRun : Nat := 0
  attempts : Nat := 0
  misses : Nat := 0
  bads : Nat := 0
  reason : MismatchReason := .none
  deriving DecidableEq, Repr, Inhabited

/-- A request frame (R119, R164). -/
inductive LinkFrame where
  | pollJamb (toggle : Bool) (commands : List CoilCommand) (lamps : BitVec 32)
  | pollChest (toggle : Bool) (bits : BitVec 128)
  | census
  deriving DecidableEq, Repr, Inhabited

/-- The exchange on the line (R119), with the board (place 0 is address 1) and its request frame. -/
inductive Exchange where
  | idle
  | sending (board : Fin 16) (frame : LinkFrame)
  | window (board : Fin 16) (frame : LinkFrame)
  deriving DecidableEq, Repr, Inhabited

/-- The mirrored values of one board address (R134). -/
structure BoardValues where
  state : Nat := 0
  reason : Nat := 0
  misses : Nat := 0
  bads : Nat := 0
  outgoing : Nat := 0
  deriving DecidableEq, Repr, Inhabited

/-- The Link Controller (R119 to R135). -/
structure Link where
  /-- the boards of address 1 to 16 -/
  boards : Vector BoardLink 16 := Vector.replicate 16 {}
  /-- a round is in progress -/
  inRound : Bool := false
  /-- the round number, kept modulo 16 -/
  round : BitVec 4 := 0
  /-- the time at which the next round is due -/
  due : BitVec 32 := 0
  exchange : Exchange := .idle
  /-- the requests whose exchanges have been ended while they were being sent, oldest first; each is sent to its end
  (R135; log entry 21) -/
  draining : List (Fin 16 × LinkFrame) := []
  /-- CLEAR_COUNTERS requests to be completed at the end of the round: cell and former sum (R133) -/
  clears : List (Nat × Nat) := []
  /-- a board state changed since the last update began (R134; log entry 14) -/
  changed : Bool := false
  /-- a change of board state that the update in progress shows (R134) -/
  showing : Bool := false
  mirror : Mirror (List BoardValues) := { shadow := [] }
  deriving DecidableEq, Repr, Inhabited

/-- The reply that R121 has a board send to a valid frame: to a POLL request with the frame's toggle as echo, to a
CENSUS request with the board's last accepted toggle. -/
inductive BoardReply where
  | poll (echo : Bool)
  | census (lastToggle : Bool)
  deriving DecidableEq, Repr, Inhabited

/-- A board's own side of the link (R121): its last accepted toggle, the lamp and chest bits it applies, the coil
commands that the last frame it received made it start, and the reply it sends to that frame; `none` before the first.
This is state of the boards, not of the part (log entry 22). -/
structure BoardSide where
  lastToggle : Bool := false
  lamps : BitVec 32 := 0
  chest : BitVec 128 := 0
  started : List CoilCommand := []
  reply : Option BoardReply := none
  deriving DecidableEq, Repr, Inhabited

/-! ### Request Scanner (09_requests_from_the_console_processor.md) -/

/-- The request kinds of R139. -/
inductive RequestKind where
  | recall | capture | cancel | tutti | undo | selectLevel | lockLevel | seqSet | seqStep
  | crescProgram | crescCalibrate | captureSetup | clearFaults | clearCounters | reload | stopSet
  deriving DecidableEq, Repr, Inhabited

/-- A request as the sweep read it (R138). -/
structure Request where
  kind : RequestKind
  arg0 : Nat
  arg1 : Nat
  deriving DecidableEq, Repr, Inhabited

/-- The sweep: idle, or in progress at a cell and there at one point of its handling (R137, R138). -/
inductive Sweep where
  | idle
  /-- reading the state byte -/
  | stateRead (cell : Nat)
  /-- reading the kind and the arguments of a POSTED cell -/
  | cellRead (cell : Nat)
  /-- writing ACCEPTED; the request is handed on when that write has completed -/
  | accepting (cell : Nat) (request : Request)
  /-- refused, until its DONE is written -/
  | refusing (cell : Nat)
  /-- a RELOAD, about to be taken (R144) -/
  | reload (cell : Nat)
  deriving DecidableEq, Repr, Inhabited

/-- The results of R140. -/
inductive RequestResult where
  | ok | empty | corrupt | locked | range | busy | full | unknown | disabled | abandoned | noSignal
  deriving DecidableEq, Repr, Inhabited

/-- An entry of the completion list (R140). -/
structure Completion where
  cell : Nat
  result : RequestResult
  value : Nat
  time : BitVec 32
  deriving DecidableEq, Repr, Inhabited

/-- The Request Scanner (R136 to R145). -/
structure Requests where
  sweep : Sweep := .idle
  scanPending : Bool := false
  /-- the outstanding table, one flag per cell -/
  outstanding : BitVec 32 := 0
  /-- the completion list, oldest first -/
  completions : List Completion := []
  reloadCell : Option Nat := none
  deriving DecidableEq, Repr, Inhabited

/-! ### Journal Writer (10_the_journal_and_the_attention_line.md) -/

/-- The journal kinds of R148. -/
inductive JournalKind where
  | recalled | recallRefused | captured | captureRefused | cancelled | tutti | reversed | undo
  | level | sequence | actionOverrun | motionFault | board | crescProgram | calibrated | started
  deriving DecidableEq, Repr, Inhabited

/-- A journal entry without its sequence number, which it gets when it is written (R147, R148). -/
structure JournalEntry where
  kind : JournalKind
  origin : Origin := .none
  level : Nat := 0
  piston : Nat := 0xFF
  argA : Nat := 0
  argB : Nat := 0
  time : BitVec 32 := 0
  deriving DecidableEq, Repr, Inhabited

/-- What the Journal Writer is doing (R147, R149). -/
inductive WriterPhase where
  | idle
  /-- writing the zeros of the first entry to LOADING -/
  | clearing
  /-- reading the consumed count for this entry -/
  | countRead (entry : JournalEntry)
  /-- writing this entry -/
  | entryWrite (entry : JournalEntry)
  /-- writing the advanced written count -/
  | countWrite
  deriving DecidableEq, Repr, Inhabited

/-- The Journal Writer (R146, R147, R149). -/
structure Journal where
  written : BitVec 32 := 0
  lost : Nat := 0
  /-- the entry list, oldest first -/
  list : List JournalEntry := []
  phase : WriterPhase := .idle
  /-- lost-count writes in progress -/
  lostWrites : Nat := 0
  /-- the header has been cleared at the first entry to LOADING since the hard reset (R149) -/
  cleared : Bool := false
  deriving DecidableEq, Repr, Inhabited

/-! ### The whole -/

/-- The state of the part, with the console memory, the boards' side of the jamb link and the queue of commands
that wait. -/
structure State where
  /-- RESET# is held low (R155) -/
  inReset : Bool := false
  part : PartState := .halted
  /-- RUN and ATTN_EN of CONTROL (R153) -/
  run : Bool := false
  attnEn : Bool := false
  /-- the cause flags and the mask (R151, R152) -/
  cause : BitVec 8 := 0
  mask : BitVec 8 := 0
  /-- the 16 bits of the last CAUSE read, as sent to the console processor (R153; log entry 23) -/
  readData : BitVec 16 := 0
  /-- the console clock -/
  clock : BitVec 32 := 0
  /-- the clock-zeroed record (R155, R156) -/
  clockZeroed : Bool := false
  mem : Memory := []
  port : Port := {}
  dl : Loader := {}
  ce : Combination := {}
  sq : Sequencer := {}
  cu : Crescendo := {}
  cs : Scanner := {}
  ru : Registration := {}
  ms : Motion := {}
  lc : Link := {}
  rs : Requests := {}
  jw : Journal := {}
  /-- the boards of address 1 to 16 as they stand on their own side of the link (R121) -/
  line : Vector BoardSide 16 := Vector.replicate 16 {}
  /-- the commands that wait, first in, first out (the model's own; log entry 12) -/
  pending : List Instr := []
  deriving DecidableEq, Repr, Inhabited

/-- Why the machine stops with a fault. -/
inductive Fault where
  /-- Raised by CONSOLE_PROCESSOR_WRITE for a byte beyond the 2 MiB of console memory: the spec gives no such
  address (00_scope.md, Console memory). Safe: the machine stops where the hardware has nothing to do. -/
  | outsideConsoleMemory (addr : Nat)
  deriving DecidableEq, Repr

/-- Why the machine gives a command no meaning. -/
inductive Refusal where
  /-- Raised by `exec` for a command that is not modelled; no command is. Safe: nothing is claimed of it. -/
  | notModelled (mnemonic : String)
  deriving DecidableEq, Repr

/-- The machine right after a hard reset has been released (R155 and, block by block, R16, R38, R59, R68, R84,
R97, R118, R135, R145, R149): every field at the default that its structure gives. Console memory lists nothing
(log entry 1); the values that the spec does not give are those of log entries 2, 22, 23 and 33. -/
def State.reset : State := {}

end Sys2Proof.Machine
end

