-- ==== Sys2Proof/Machine/Layout.lean ====
section
/-! DEFINITION. The memory map and the places of fields in it (R159 to R163), and the codes of named values. -/

namespace Sys2Proof.Machine

/-! ### Regions (R159, R160, R161) -/

def headerBase : Nat := 0x000000
def divisionAddr (d : Nat) : Nat := 0x000020 + 2 * d
/-- The board record at place i, of address i + 1. -/
def boardAddr (i : Nat) : Nat := 0x000040 + 8 * i
def stopAddr (s : Nat) : Nat := 0x000100 + 16 * s
def pistonAddr (e : Nat) : Nat := 0x001900 + 8 * e
/-- Request cell c (R162). -/
def cellAddr (c : Nat) : Nat := 0x011000 + 16 * c
def journalHeaderBase : Nat := 0x011400
/-- The journal entry with sequence number n (R146). -/
def journalEntryAddr (n : Nat) : Nat := 0x011800 + 16 * (n % Config.journalSize)
def sequenceBase : Nat := 0x013000
/-- Step t of the sequence list (R60). -/
def stepAddr (t : Nat) : Nat := 0x013004 + 4 * t
/-- Crescendo program p (R76). -/
def programAddr (p : Nat) : Nat := 0x015000 + 4096 * p
/-- The lock byte of level v (R159). -/
def lockAddr (v : Nat) : Nat := 0x019000 + v
def tuttiSlotAddr : Nat := 0x019100
/-- The slot of level v and piston index i (R39). -/
def slotAddr (v i : Nat) : Nat := 0x020000 + (v * 128 + i) * 56

/-! ### Status area (R163) -/

def imageBase : Nat := 0x010000
def motionBase : Nat := 0x010100
def crescendoBase : Nat := 0x010180
def engineBase : Nat := 0x0101A0
def sequencerBase : Nat := 0x0101B0
def reportBase : Nat := 0x0101C0
def lostBase : Nat := 0x0101C4
def linkBase : Nat := 0x010200
/-- The mirrors of the board at place i, of address i + 1. -/
def boardMirrorAddr (i : Nat) : Nat := 0x010208 + 8 * i

/-! ### Codes -/

/-- The codes of 11_register_window_and_start_up.md. -/
def PartState.code : PartState → Nat
  | .halted => 0 | .loading => 1 | .descError => 2 | .census => 3 | .running => 4

/-- HARD 0, SOFT 1, RELOAD 2 (R148). -/
def LoadCause.code : LoadCause → Nat
  | .hard => 0 | .soft => 1 | .reload => 2

/-- The origin codes of R148. -/
def Origin.code : Origin → Nat
  | .thumb => 0 | .toe => 1 | .sequencer => 2 | .consoleProcessor => 3 | .follow => 4 | .none => 0xFF

/-- The journal kind codes of R148. -/
def JournalKind.code : JournalKind → Nat
  | .recalled => 1 | .recallRefused => 2 | .captured => 3 | .captureRefused => 4 | .cancelled => 5
  | .tutti => 6 | .reversed => 7 | .undo => 8 | .level => 9 | .sequence => 10 | .actionOverrun => 11
  | .motionFault => 12 | .board => 13 | .crescProgram => 14 | .calibrated => 15 | .started => 16

/-- The result codes of R140. -/
def RequestResult.code : RequestResult → Nat
  | .ok => 0 | .empty => 1 | .corrupt => 2 | .locked => 3 | .range => 4 | .busy => 5 | .full => 6
  | .unknown => 7 | .disabled => 8 | .abandoned => 9 | .noSignal => 10

/-- The request kind codes of R139; any other code is no request kind. -/
def RequestKind.ofCode : Nat → Option RequestKind
  | 1 => some .recall | 2 => some .capture | 3 => some .cancel | 4 => some .tutti | 5 => some .undo
  | 6 => some .selectLevel | 7 => some .lockLevel | 8 => some .seqSet | 9 => some .seqStep
  | 10 => some .crescProgram | 11 => some .crescCalibrate | 12 => some .captureSetup
  | 13 => some .clearFaults | 14 => some .clearCounters | 15 => some .reload | 16 => some .stopSet
  | _ => none

/-- The kind codes used in ACTION_OVERRUN (R46). -/
def ActionKind.code : ActionKind → Nat
  | .recall _ _ => 1 | .capture _ _ => 2 | .cancel => 3 | .tutti _ => 4 | .tuttiCapture => 5
  | .reverse _ => 6 | .stopSet _ _ => 7 | .undo => 8

/-- UNKNOWN 0, PRESENT 1, SUSPECT 2, ABSENT 3, MISMATCH 4 (R132). -/
def BoardState.code : BoardState → Nat
  | .unknown => 0 | .present => 1 | .suspect => 2 | .absent => 3 | .mismatch => 4

/-- NONE 0, KIND 1, COUNT 2, SHOE 3 (R134). -/
def MismatchReason.code : MismatchReason → Nat
  | .none => 0 | .kind => 1 | .count => 2 | .shoe => 3

/-- IDLE 0, READING 1, WRITING 2 (R163). -/
def EngineState.code : EngineState → Nat
  | .idle => 0 | .reading => 1 | .writing => 2

/-- NONE 0, LIVE 1, HELD 2 (R83). -/
def Signal.code : Signal → Nat
  | .none => 0 | .live _ => 1 | .held _ => 2

/-- JAMB 1, CHEST 2 (R164). -/
def BoardKind.code : BoardKind → Nat
  | .none => 0 | .jamb => 1 | .chest => 2

/-- The cell states of R136. -/
def cellPosted : Byte := 1
def cellAccepted : Byte := 2
def cellDone : Byte := 3

/-- The status byte of a VALID slot (R39). -/
def slotValid : Byte := 0xC3

/-- The refused mark of R46 and R65. -/
def refusedMark : Nat := 0xFFFF

end Sys2Proof.Machine
end

