-- ==== Sys2Proof/Machine/Bytes.lean ====
section
/-! DEFINITION. Byte order (R157), bits of flag words and stop images, the check word of a slot (R40) and the
frame check of the jamb link (R120). -/

namespace Sys2Proof.Machine

/-- The `n` bytes of a number, low byte first (R157). -/
def bytesLE : Nat → Nat → List Byte
  | 0, _ => []
  | n + 1, x => BitVec.ofNat 8 x :: bytesLE n (x / 256)

/-- The number that bytes in ascending address form, low byte first (R157). -/
def natLE : List Byte → Nat
  | [] => 0
  | b :: bs => b.toNat + 256 * natLE bs

/-- The `n` bytes of a number, high byte first (R164). -/
def bytesBE (n x : Nat) : List Byte := (bytesLE n x).reverse

/-- The number that bytes form, high byte first (R164). -/
def natBE (bs : List Byte) : Nat := natLE bs.reverse

/-- The 48 bytes of a stop image: stop s in byte s / 8, bit s mod 8 (R157). -/
def imageBytes (image : StopImage) : List Byte := bytesLE 48 image.toNat

/-- The stop image that 48 bytes hold. -/
def imageOf (bytes : List Byte) : StopImage := BitVec.ofNat 384 (natLE bytes)

/-- `x` with bit `i` set to `b`. -/
def setBit {w : Nat} (x : BitVec w) (i : Nat) (b : Bool) : BitVec w :=
  if b then x ||| (1#w <<< i) else x &&& ~~~(1#w <<< i)

/-- The stops of an image, ascending. -/
def stopsOf (image : StopImage) : List Nat := (List.range Config.maxStops).filter image.getLsbD

/-- The image of a list of stop numbers. -/
def imageOfStops : List Nat → StopImage
  | [] => 0
  | s :: ss => setBit (imageOfStops ss) s true

/-- The image of stops 0 to n − 1. -/
def firstStops (n : Nat) : StopImage := BitVec.ofNat 384 (2 ^ (min n Config.maxStops) - 1)

/-- The flags of a list, in order, as bits from bit 0 upwards. -/
def bitsOfBools : List Bool → Nat
  | [] => 0
  | b :: bs => b.toNat + 2 * bitsOfBools bs

/-- The sum, modulo 65,536, of the first `n` 16-bit words of an image. -/
def wordSum (image : StopImage) : Nat → BitVec 16
  | 0 => 0
  | n + 1 => wordSum image n + image.extractLsb' (16 * n) 16

/-- The check word of a slot (R40): the 24 words of its image, its scope and the constant 0x5A5A. -/
def checkWord (scope : Byte) (image : StopImage) : BitVec 16 :=
  wordSum image 24 + scope.setWidth 16 + 0x5A5A

/-- One bit step of the frame check: generator x^16 + x^12 + x^5 + 1 (R120). -/
def crcBit (c : BitVec 16) : BitVec 16 :=
  if c.getLsbD 15 then (c <<< 1) ^^^ 0x1021 else c <<< 1

/-- One byte enters the register, most significant bit first (R120). -/
def crcByte (c : BitVec 16) (b : Byte) : BitVec 16 :=
  let c := c ^^^ (b.setWidth 16 <<< 8)
  crcBit (crcBit (crcBit (crcBit (crcBit (crcBit (crcBit (crcBit c)))))))

/-- The frame check over bytes in the order they are sent (R120). -/
def frameCheck (bytes : List Byte) : BitVec 16 := bytes.foldl crcByte 0xFFFF

/-- Map over a vector, written so that the kernel evaluates it. -/
def mapVector {α β : Type} {n : Nat} (f : α → β) (v : Vector α n) : Vector β n :=
  ⟨⟨v.toList.map f⟩, by simp⟩

end Sys2Proof.Machine
end

