-- ==== Sys2Proof/Machine/Memory.lean ====
section
/-! DEFINITION. Console memory: reading and writing one byte (R157), and the canonical form that keeps equal
memories equal data. -/

namespace Sys2Proof.Machine

/-- The byte at an address; an address that is not listed reads as at power-on (log entry 1). -/
def Memory.read : Memory → Nat → Byte
  | [], _ => Config.powerOnByte
  | (a, b) :: m, k => if k = a then b else Memory.read m k

/-- One byte in front of a memory whose addresses lie above it; a power-on byte is not listed. -/
def Memory.put (a : Nat) (b : Byte) (m : Memory) : Memory :=
  if b = Config.powerOnByte then m else (a, b) :: m

/-- Write one byte, keeping the canonical form. -/
def Memory.write : Memory → Nat → Byte → Memory
  | [], k, v => Memory.put k v []
  | (a, b) :: m, k, v =>
    if k < a then Memory.put k v ((a, b) :: m)
    else if k = a then Memory.put k v m
    else (a, b) :: Memory.write m k v

/-- Write bytes in ascending address (R157). -/
def Memory.writeBytes (m : Memory) : Nat → List Byte → Memory
  | _, [] => m
  | a, b :: bs => Memory.writeBytes (m.write a b) (a + 1) bs

/-- The `n` bytes from an address upwards. -/
def Memory.readBytes (m : Memory) (a : Nat) : Nat → List Byte
  | 0 => []
  | n + 1 => m.read a :: Memory.readBytes m (a + 1) n

/-- The canonical form: addresses strictly rising, no power-on byte listed. -/
def Memory.wf : Memory → Bool
  | [] => true
  | [(_, b)] => b != Config.powerOnByte
  | (a, b) :: (a', b') :: m =>
    b != Config.powerOnByte && decide (a < a') && Memory.wf ((a', b') :: m)

end Sys2Proof.Machine
end

