-- ==== Sys2Proof/Machine/Flags.lean ====
section
/-! DEFINITION. The cause flags, the mask and ATTN# (R151, R152). -/

namespace Sys2Proof.Machine

/-- The eight cause flags (R151). -/
inductive CauseFlag where
  | req | jnl | lost | img | cres | brd | flt | state
  deriving DecidableEq, Repr

/-- The bit of a flag in CAUSE and in MASK (R151, R165). -/
def CauseFlag.bit : CauseFlag → Nat
  | .req => 0 | .jnl => 1 | .lost => 2 | .img => 3 | .cres => 4 | .brd => 5 | .flt => 6 | .state => 7

/-- Raising a flag sets it whether or not it is masked (R151). -/
def raise (f : CauseFlag) (s : State) : State := { s with cause := setBit s.cause f.bit true }

/-- Whether a flag is set. -/
def State.hasCause (s : State) (f : CauseFlag) : Bool := s.cause.getLsbD f.bit

/-- ATTN# is driven low while ATTN_EN is 1 and some flag is set whose MASK bit is 1 (R152). The pin is this
function of the three values at every moment, so it has no field of its own. -/
def State.attnLow (s : State) : Bool := s.attnEn && (s.cause &&& s.mask) != 0

end Sys2Proof.Machine
end

