-- ==== Sys2Proof/Machine/Operands.lean ====
section
/-! DEFINITION. The operand forms: the fields of CONTROL, what each register reads as (R153, R165), the fields of
the two reply frames (R164), and the arguments of a request cell (R139). -/

namespace Sys2Proof.Machine

/-! ### Registers -/

/-- RUN, RESET and ATTN_EN of a CONTROL write; bits 3 to 15 are ignored (R165). -/
def controlRun (data : BitVec 16) : Bool := data.getLsbD 0
def controlReset (data : BitVec 16) : Bool := data.getLsbD 1
def controlAttnEn (data : BitVec 16) : Bool := data.getLsbD 2

/-- What a register reads as, before the effect of the read (R153, R165). -/
def readRegister (addr : BitVec 3) (s : State) : BitVec 16 :=
  match addr.toNat with
  | 0 => 0x5C38
  | 1 => BitVec.ofNat 16 (256 + s.part.code)
  | 2 => BitVec.ofNat 16 (s.run.toNat + 4 * s.attnEn.toNat)
  | 4 => s.cause.setWidth 16
  | 5 => s.mask.setWidth 16
  | _ => 0

/-! ### Reply frames -/

/-- The type bytes of the two replies (R164). -/
def pollReplyType : Byte := 0x81
def censusReplyType : Byte := 0x82

/-- The request types of a frame (R164). -/
def LinkFrame.isCensus : LinkFrame → Bool
  | .census => true
  | _ => false

/-- The length a reply is read to: that of its own type, or, where its type byte is neither reply's, that of the
reply the request calls for (R164). -/
def replyLength (frame : LinkFrame) (bytes : List Byte) : Nat :=
  if bytes.getD 1 0 = pollReplyType then 18
  else if bytes.getD 1 0 = censusReplyType then 20
  else if frame.isCensus then 20 else 18

/-- A reply carries the right check: it has its whole length, and its last two bytes, high byte first, are the
check of those before them (R120, R164). -/
def replyCheckOk (bytes : List Byte) (length : Nat) : Bool :=
  bytes.length == length &&
    (frameCheck (bytes.take (length - 2))).toNat == natBE (bytes.drop (length - 2))

/-- The levels of contacts 0 to 63 in 8 bytes: contact i in byte i / 8, bit i mod 8, 1 closed (R157, R164). -/
def contactLevels (bytes : List Byte) : BitVec 64 := BitVec.ofNat 64 (natLE bytes)

/-- What a POLL reply carries (R164). -/
structure PollReply where
  kind : Nat
  echo : Bool
  levels : BitVec 64
  shoeValid : Bool
  shoe : Nat
  deriving DecidableEq, Repr

/-- What a CENSUS reply carries (R164). -/
structure CensusReply where
  kind : Nat
  lastToggle : Bool
  contacts : Nat
  coils : Nat
  lamps : Nat
  shoe : Bool
  chestBits : Nat
  levels : BitVec 64
  deriving DecidableEq, Repr

/-- A byte as a number; 0 where the reply has no such byte. -/
def byteAt (bytes : List Byte) (i : Nat) : Nat := (bytes.getD i 0).toNat

/-- The fields of a POLL reply; a toggle or flag byte is read as 0 when it is 0 and as 1 otherwise (R164). -/
def pollReplyOf (bytes : List Byte) : PollReply where
  kind := byteAt bytes 2
  echo := byteAt bytes 3 != 0
  levels := contactLevels ((bytes.drop 4).take 8)
  shoeValid := byteAt bytes 12 != 0
  shoe := natBE ((bytes.drop 14).take 2)

/-- The fields of a CENSUS reply (R164). Its shoe flag is set where the byte is nonzero, as R164 has the other flag
bytes read (DEDUCED, log entry 19). -/
def censusReplyOf (bytes : List Byte) : CensusReply where
  kind := byteAt bytes 2
  lastToggle := byteAt bytes 3 != 0
  contacts := byteAt bytes 4
  coils := byteAt bytes 5
  lamps := byteAt bytes 6
  shoe := byteAt bytes 7 != 0
  chestBits := natBE ((bytes.drop 8).take 2)
  levels := contactLevels ((bytes.drop 10).take 8)

/-! ### Request cells -/

/-- The TUTTI state of an argument (R139): 0 off, 1 on, 2 toggle. -/
def tuttiStateOf : Nat → TuttiState
  | 0 => .off
  | 1 => .on
  | _ => .toggle

/-- Whether a request is refused RANGE at acceptance, from the working copy alone (R139). -/
def refusedAtAcceptance (h : Header) (r : Request) : Bool :=
  match r.kind with
  | .recall | .capture => decide (r.arg0 ≥ h.levels) || decide (r.arg1 ≥ 128)
  | .tutti => decide (r.arg0 > 2)
  | .seqStep => decide (r.arg0 > 1)
  | .captureSetup => decide (r.arg1 > 255)
  | .stopSet => decide (r.arg1 ≥ h.stops) || decide (r.arg0 > 1)
  | .cancel | .undo | .selectLevel | .lockLevel | .seqSet | .crescProgram | .crescCalibrate
  | .clearFaults | .clearCounters | .reload => false

end Sys2Proof.Machine
end

