-- ==== Sys2Proof/Machine/Ops.lean ====
section
/-! DEFINITION. The operations every block shares: the memory port (R157, R158), handing the Journal Writer an
entry (R147), handing the Request Scanner a result (R140), the console clock, and the records of the working
copy. -/

namespace Sys2Proof.Machine

/-! ### The working copy -/

abbrev State.desc (s : State) : Desc := s.dl.copy

/-- The place of a board address, 1 to 16 (place 0 is address 1). -/
def boardPlace (address : Nat) : Fin 16 := Fin.ofNat 16 (address - 1)

/-- The address of a board place. -/
def boardAddress (i : Fin 16) : Nat := i.val + 1

/-- The record of the board at a place; addresses above the board count are of kind NONE (R5). -/
def Desc.board (d : Desc) (i : Fin 16) : BoardRec := d.boards.getD i.val {}

/-- The record of a stop. -/
def Desc.stop (d : Desc) (s : Nat) : StopRec := d.stops.getD s {}

/-- The record of a division. -/
def Desc.division (d : Desc) (i : Nat) : DivisionRec := d.divisions.getD i {}

/-- The image of the stops of a list of records that pass a test, the first record being stop `n`. -/
def stopMask (p : StopRec → Bool) : Nat → List StopRec → StopImage
  | _, [] => 0
  | n, r :: rs => let m := stopMask p (n + 1) rs; if p r then setBit m n true else m

/-- The stops of the console that pass a test. -/
def Desc.stopsWhere (d : Desc) (p : StopRec → Bool) : StopImage := stopMask p 0 d.stops

/-- The MOVED stops. -/
def Desc.movedStops (d : Desc) : StopImage := d.stopsWhere (fun r => r.kind == .moved)

/-- The stops whose sense or press contact lies on the board at a place. -/
def Desc.stopsOnBoard (d : Desc) (i : Fin 16) : StopImage :=
  d.stopsWhere (fun r => r.board == boardAddress i)

/-- The stops of the divisions of a scope (R48). -/
def Desc.stopsInScope (d : Desc) (scope : Byte) : StopImage :=
  d.stopsWhere (fun r => scope.getLsbD r.division)

/-- The board whose record sets the shoe flag: the shoe board (R5, R69). -/
def Desc.isShoeBoard (d : Desc) (i : Fin 16) : Bool :=
  (d.board i).kind == .jamb && (d.board i).shoe

/-! ### The memory port (R158) -/

def Port.get (p : Port) : Block → BlockPort
  | .dl => p.dl | .ce => p.ce | .sq => p.sq | .cu => p.cu | .ru => p.ru
  | .ms => p.ms | .lc => p.lc | .rs => p.rs | .jw => p.jw

def Port.put (p : Port) (b : Block) (q : BlockPort) : Port :=
  match b with
  | .dl => { p with dl := q } | .ce => { p with ce := q } | .sq => { p with sq := q }
  | .cu => { p with cu := q } | .ru => { p with ru := q } | .ms => { p with ms := q }
  | .lc => { p with lc := q } | .rs => { p with rs := q } | .jw => { p with jw := q }

/-- The blocks in rotation, beginning after the block served last and ending with it (R158). The cyclic order is
that in which R158 names the blocks (DESIGN CHOICE, log entry 2). -/
def Block.rotation : Block → List Block
  | .dl => [.ce, .sq, .cu, .ru, .ms, .lc, .rs, .jw, .dl]
  | .ce => [.sq, .cu, .ru, .ms, .lc, .rs, .jw, .dl, .ce]
  | .sq => [.cu, .ru, .ms, .lc, .rs, .jw, .dl, .ce, .sq]
  | .cu => [.ru, .ms, .lc, .rs, .jw, .dl, .ce, .sq, .cu]
  | .ru => [.ms, .lc, .rs, .jw, .dl, .ce, .sq, .cu, .ru]
  | .ms => [.lc, .rs, .jw, .dl, .ce, .sq, .cu, .ru, .ms]
  | .lc => [.rs, .jw, .dl, .ce, .sq, .cu, .ru, .ms, .lc]
  | .rs => [.jw, .dl, .ce, .sq, .cu, .ru, .ms, .lc, .rs]
  | .jw => [.dl, .ce, .sq, .cu, .ru, .ms, .lc, .rs, .jw]

/-- The block the port grants next: the first that waits, in rotation (R158). -/
def Port.granted (p : Port) : Option Block :=
  p.served.rotation.find? (fun b => !(p.get b).queue.isEmpty)

/-- How many accesses wait in all. -/
def Port.waiting (p : Port) : Nat :=
  p.dl.queue.length + p.ce.queue.length + p.sq.queue.length + p.cu.queue.length + p.ru.queue.length +
    p.ms.queue.length + p.lc.queue.length + p.rs.queue.length + p.jw.queue.length

/-- The port serves the access a block waits with: one byte (R157, R158). -/
def serveBlock (b : Block) (s : State) : State :=
  match (s.port.get b).queue with
  | [] => s
  | .read a :: rest =>
    { s with port := { s.port.put b ⟨rest, (s.port.get b).buf ++ [s.mem.read a]⟩ with served := b } }
  | .write _ a v :: rest =>
    { s with
      mem := s.mem.write a v
      port := { s.port.put b ⟨rest, (s.port.get b).buf⟩ with served := b } }

/-- The port serves one access, of the block it grants; `none` where no block waits. -/
def serveNext (s : State) : Option State := s.port.granted.map (fun b => serveBlock b s)

/-- The port serves accesses, in rotation, until a block's side of it passes a test (at most `n` accesses). -/
def serveUntil (b : Block) (done : BlockPort → Bool) : Nat → State → State
  | 0, s => s
  | n + 1, s =>
    if done (s.port.get b) then s
    else match serveNext s with
      | some s' => serveUntil b done n s'
      | none => s

def Access.isRead : Access → Bool
  | .read _ => true
  | .write _ _ _ => false

def Access.isFor (p : Purpose) : Access → Bool
  | .read _ => false
  | .write q _ _ => q == p

/-- No read of the block waits: its read has completed. -/
def BlockPort.readDone (q : BlockPort) : Bool := q.queue.all (fun a => !a.isRead)

/-- No write of this purpose waits. -/
def BlockPort.writeDone (p : Purpose) (q : BlockPort) : Bool := q.queue.all (fun a => !a.isFor p)

/-- A block's read completes: the port serves every waiting block in rotation until the read's last byte. -/
def finishRead (b : Block) (s : State) : State := serveUntil b BlockPort.readDone s.port.waiting s

/-- A block's writes of one purpose complete. -/
def finishWrite (b : Block) (p : Purpose) (s : State) : State :=
  serveUntil b (BlockPort.writeDone p) s.port.waiting s

/-- The bytes that a block's completed read has taken, in ascending address. -/
def State.readBytes (s : State) (b : Block) : List Byte := (s.port.get b).buf

/-- The accesses of a read of `n` bytes, in ascending address (R157). -/
def readAccesses : Nat → Nat → List Access
  | _, 0 => []
  | a, n + 1 => .read a :: readAccesses (a + 1) n

/-- The accesses of a write of bytes, in ascending address (R157). -/
def writeAccesses (p : Purpose) : Nat → List Byte → List Access
  | _, [] => []
  | a, b :: bs => .write p a b :: writeAccesses p (a + 1) bs

/-- A block waits with further accesses, behind those it waits with. -/
def enqueueAccesses (b : Block) (as : List Access) (s : State) : State :=
  { s with port := s.port.put b { s.port.get b with queue := (s.port.get b).queue ++ as } }

/-- A block starts a read of `n` bytes. -/
def startRead (b : Block) (a n : Nat) (s : State) : State :=
  { s with port := s.port.put b ⟨(s.port.get b).queue ++ readAccesses a n, []⟩ }

/-- A block starts a write of bytes. -/
def startWrite (b : Block) (p : Purpose) (a : Nat) (bytes : List Byte) (s : State) : State :=
  enqueueAccesses b (writeAccesses p a bytes) s

/-- A block keeps only the waiting accesses that pass a test; the rest are not made. -/
def keepAccesses (b : Block) (keep : Access → Bool) (s : State) : State :=
  { s with port := s.port.put b ⟨(s.port.get b).queue.filter keep, []⟩ }

/-! ### The Journal Writer's entry list (R147) -/

/-- An entry is lost: the lost count goes up, and its mirror is written (R147). -/
def loseEntry (s : State) : State :=
  let lost := if s.jw.lost < 65535 then s.jw.lost + 1 else s.jw.lost
  startWrite .jw .lost lostBase (bytesLE 2 lost)
    { s with jw := { s.jw with lost := lost, lostWrites := s.jw.lostWrites + 1 } }

/-- The Journal Writer, when it has nothing in hand, takes the head of its list and reads the consumed count. -/
def takeEntry (s : State) : State :=
  match s.jw.phase, s.jw.list with
  | .idle, e :: rest =>
    startRead .jw (journalHeaderBase + 4) 4
      { s with jw := { s.jw with list := rest, phase := .countRead e } }
  | _, _ => s

/-- A block hands over an entry, stamped with the console clock: it joins the tail of the list, or is lost where
the list holds 16 (R147). -/
def journal (e : JournalEntry) (s : State) : State :=
  if s.jw.list.length ≥ Config.entryListSize then loseEntry s
  else takeEntry { s with jw := { s.jw with list := s.jw.list ++ [{ e with time := s.clock }] } }

/-! ### The Request Scanner's completion list (R140) -/

/-- The writes of a completion: result, result value, completion time, and DONE last (R140, R162). -/
def completionAccesses (c : Completion) : List Access :=
  writeAccesses .complete (cellAddr c.cell + 2) (bytesLE 1 c.result.code) ++
  writeAccesses .complete (cellAddr c.cell + 8) (bytesLE 4 c.value) ++
  writeAccesses .complete (cellAddr c.cell + 12) (bytesLE 4 c.time.toNat) ++
  writeAccesses .complete (cellAddr c.cell) [cellDone]

/-- A result is handed to the Request Scanner: it joins the completion list with the console clock, and its writes
start at once where it is the only one (R140). -/
def complete (cell : Nat) (result : RequestResult) (value : Nat) (s : State) : State :=
  let c : Completion := ⟨cell, result, value, s.clock⟩
  let s' := { s with rs := { s.rs with completions := s.rs.completions ++ [c] } }
  if s.rs.completions.isEmpty then enqueueAccesses .rs (completionAccesses c) s' else s'

/-- The result value that goes with a result to which the rules give none (R46, R62, R67): a free value (DESIGN
CHOICE, log entry 36). -/
def State.unstated (s : State) (cell : Option Nat) : Nat := (Config.unstatedValue cell s.clock).toNat

/-- The result of an action or step request that may have come from a request cell. -/
def completeIf (cell : Option Nat) (result : RequestResult) (value : Nat) (s : State) : State :=
  match cell with
  | some c => complete c result value s
  | none => s

/-! ### The console clock -/

/-- How far a time lies ahead on the console clock, modulo 2^32; 0 once the clock has reached it (log entry 4). -/
def ahead (clock due : BitVec 32) : Nat :=
  if (due - clock).toNat < 2147483648 then (due - clock).toNat else 0

/-- The expiry of an entry's timer (R98). -/
def EntryState.expiry : EntryState → Option (BitVec 32)
  | .queued | .sent => none
  | .pulsing t | .settling t => some t

/-- The times at which an event is due: the timers of the motion entries, and the next round where none is in
progress (R108, R109, R125). -/
def State.dueTimes (s : State) : List (BitVec 32) :=
  s.ms.queue.filterMap (fun e => e.state.expiry) ++
    (if (s.part = .census ∨ s.part = .running) ∧ s.lc.inRound = false then [s.lc.due] else [])

/-- No event is due before this time. -/
def State.isNextDue (s : State) (due : BitVec 32) : Bool :=
  s.dueTimes.all (fun t => decide (ahead s.clock due ≤ ahead s.clock t))

/-- The console clock reaches a time; a time it has passed it has reached. -/
def reachTime (due : BitVec 32) (s : State) : State :=
  { s with clock := s.clock + BitVec.ofNat 32 (ahead s.clock due) }

/-- The part changes state and raises STATE (R154). -/
def changePart (p : PartState) (s : State) : State := raise .state { s with part := p }

end Sys2Proof.Machine
end

