-- ==== Sys2Proof/Machine/Mirrors.lean ====
section
/-! DEFINITION. The mirrors in the status area: the four groups guarded by a count (R36, R83, R116, R134), the
mirrors of the Combination Engine and the Sequencer, which no count guards (R42 to R61), and `finish`, with which
every command ends: the mirrors that the event changed are marked stale, and the updates that can begin do. -/

namespace Sys2Proof.Machine

/-! ### The values that the guarded groups mirror -/

/-- RI, CI, SI, TI and the tutti flag (R36). -/
def State.imageValues (s : State) : ImageValues := ⟨s.ru.ri, s.cs.ci, s.ru.si, s.ce.ti, s.ru.tutti⟩

/-- F as its mirror shows it: 0 in NONE (R70, R83). -/
def Signal.f : Signal → Nat
  | .none => 0
  | .live f => f
  | .held f => f

/-- The crescendo mirrors (R83). -/
def State.crescendoValues (s : State) : CrescendoValues where
  signal := s.cu.signal.code
  f := s.cu.signal.f
  q := s.cu.q
  stage := s.cu.stage
  program := s.cu.program.getD 0xFF
  stageCount := s.cu.stageCount
  lo := s.cu.lo
  hi := s.cu.hi
  loading := match s.cu.loading with
    | some l => l.program
    | none => 0xFF

/-- The entry is QUEUED (R98). -/
def MotionEntry.isQueued (e : MotionEntry) : Bool := e.state == .queued

/-- The entry is SENT or PULSING: its class is committed (R102). -/
def MotionEntry.isEnergised (e : MotionEntry) : Bool :=
  match e.state with
  | .sent | .pulsing _ => true
  | .queued | .settling _ => false

/-- The dispatch head: the oldest entry that is QUEUED (R98). -/
def Motion.dispatchHead (m : Motion) : Option MotionEntry := m.queue.find? MotionEntry.isQueued

/-- The motion mirrors (R116). -/
def State.motionValues (s : State) : MotionValues where
  length := s.ms.queue.length
  energised := s.ms.energised
  committed := s.ms.committed
  head := match s.ms.dispatchHead with
    | some e => e.stop
    | none => 0xFFFF
  fault := s.ms.fault
  unreachable := s.ms.unreachable

def BoardLink.values (b : BoardLink) : BoardValues :=
  ⟨b.state.code, b.reason.code, b.misses, b.bads, b.outgoing.length⟩

/-- The link mirrors, board by board in ascending address (R134). -/
def State.linkValues (s : State) : List BoardValues := s.lc.boards.toList.map BoardLink.values

/-! ### The writes of an update -/

/-- The writes of one mirror, where its value differs or the update is the full one. -/
def mirrorWrite (full : Bool) (same : Bool) (a : Nat) (bytes : List Byte) : List Access :=
  if full || !same then writeAccesses .mirror a bytes else []

/-- The unused bytes inside a group, written 0 by the full update alone (R157). The rules' orders of a group's mirrors
do not place them: the model writes them after the group's mirrors (per board in the link group) and before the even
count (DESIGN CHOICE, log entry 37). -/
def unusedWrite (full : Bool) (a n : Nat) : List Access :=
  if full then writeAccesses .mirror a (List.replicate n 0) else []

/-- In the order RI, CI, SI, TI, tutti flag (R36), the unused bytes last (log entry 37). -/
def imageWrites (full : Bool) (old new : ImageValues) : List Access :=
  mirrorWrite full (old.ri == new.ri) (imageBase + 0x08) (imageBytes new.ri) ++
  mirrorWrite full (old.ci == new.ci) (imageBase + 0x38) (imageBytes new.ci) ++
  mirrorWrite full (old.si == new.si) (imageBase + 0x68) (imageBytes new.si) ++
  mirrorWrite full (old.ti == new.ti) (imageBase + 0x98) (imageBytes new.ti) ++
  mirrorWrite full (old.tutti == new.tutti) (imageBase + 0x04) (bytesLE 1 new.tutti.toNat) ++
  unusedWrite full (imageBase + 0x05) 3

/-- In the order of the list of R83. -/
def crescendoWrites (full : Bool) (old new : CrescendoValues) : List Access :=
  mirrorWrite full (old.signal == new.signal) (crescendoBase + 0x0C) (bytesLE 1 new.signal) ++
  mirrorWrite full (old.f == new.f) (crescendoBase + 0x04) (bytesLE 2 new.f) ++
  mirrorWrite full (old.q == new.q) (crescendoBase + 0x06) (bytesLE 2 new.q) ++
  mirrorWrite full (old.stage == new.stage) (crescendoBase + 0x0D) (bytesLE 1 new.stage) ++
  mirrorWrite full (old.program == new.program) (crescendoBase + 0x0E) (bytesLE 1 new.program) ++
  mirrorWrite full (old.stageCount == new.stageCount) (crescendoBase + 0x0F) (bytesLE 1 new.stageCount) ++
  mirrorWrite full (old.lo == new.lo) (crescendoBase + 0x08) (bytesLE 2 new.lo) ++
  mirrorWrite full (old.hi == new.hi) (crescendoBase + 0x0A) (bytesLE 2 new.hi) ++
  mirrorWrite full (old.loading == new.loading) (crescendoBase + 0x10) (bytesLE 1 new.loading)

/-- In the order of the list of R116, the unused bytes last (log entry 37). -/
def motionWrites (full : Bool) (old new : MotionValues) : List Access :=
  mirrorWrite full (old.length == new.length) (motionBase + 0x04) (bytesLE 2 new.length) ++
  mirrorWrite full (old.energised == new.energised) (motionBase + 0x0A) (bytesLE 1 new.energised) ++
  mirrorWrite full (old.committed == new.committed) (motionBase + 0x06) (bytesLE 2 new.committed) ++
  mirrorWrite full (old.head == new.head) (motionBase + 0x08) (bytesLE 2 new.head) ++
  mirrorWrite full (old.fault == new.fault) (motionBase + 0x10) (imageBytes new.fault) ++
  mirrorWrite full (old.unreachable == new.unreachable) (motionBase + 0x40) (imageBytes new.unreachable) ++
  unusedWrite full (motionBase + 0x0B) 5

/-- The mirrors of one board, in the order of the list of R134, its unused bytes last (log entry 37). -/
def boardWrites (full : Bool) (i : Nat) (old new : BoardValues) : List Access :=
  mirrorWrite full (old.state == new.state) (boardMirrorAddr i) (bytesLE 1 new.state) ++
  mirrorWrite full (old.reason == new.reason) (boardMirrorAddr i + 1) (bytesLE 1 new.reason) ++
  mirrorWrite full (old.misses == new.misses) (boardMirrorAddr i + 2) (bytesLE 1 new.misses) ++
  mirrorWrite full (old.bads == new.bads) (boardMirrorAddr i + 3) (bytesLE 1 new.bads) ++
  mirrorWrite full (old.outgoing == new.outgoing) (boardMirrorAddr i + 4) (bytesLE 1 new.outgoing) ++
  unusedWrite full (boardMirrorAddr i + 5) 3

/-- Board by board in ascending address (R134). -/
def linkWrites (full : Bool) (old : List BoardValues) : Nat → List BoardValues → List Access
  | _, [] => []
  | i, v :: vs => boardWrites full i (old.getD i {}) v ++ linkWrites full old (i + 1) vs

/-! ### The course of an update -/

/-- The odd count that an update in progress shows. An update adds one to an even count; a count left odd by an
abandoned update goes to the next odd number (DESIGN CHOICE, log entry 5). -/
def oddCount (c : BitVec 32) : BitVec 32 := if c.getLsbD 0 then c + 2 else c + 1

/-- A mirror group as an update begins (R36, steps 1 and 2). -/
def Mirror.begun {V : Type} (m : Mirror V) (v : V) : Mirror V where
  count := oddCount m.count
  stale := false
  updating := true
  full := false
  shadow := v

/-- A mirror group as an update ends (R36, step 4). -/
def Mirror.ended {V : Type} (m : Mirror V) : Mirror V := { m with count := m.count + 1, updating := false }

/-- Whether an update begins: the mirrors are stale and none is in progress, or the full update of an entry to
LOADING takes the place of any in progress (R36). -/
def Mirror.begins {V : Type} (m : Mirror V) : Bool := m.full || (m.stale && !m.updating)

/-- Mark a mirror group stale where its values differ. -/
def Mirror.mark {V : Type} (m : Mirror V) (same : Bool) : Mirror V := { m with stale := m.stale || !same }

/-- The writes of a whole update: the odd count, the mirrors, the even count (R36, steps 2 to 4). -/
def updateAccesses (countAddr : Nat) (odd : BitVec 32) (writes : List Access) : List Access :=
  writeAccesses .mirror countAddr (bytesLE 4 odd.toNat) ++ writes ++
    writeAccesses .mirror countAddr (bytesLE 4 (odd + 1).toNat)

/-- The full update abandons what its block still had to write (R36). -/
def abandonIfFull (b : Block) (full : Bool) (s : State) : State :=
  if full then keepAccesses b (fun _ => false) s else s

/-- An image mirror update begins (R36). -/
def beginImageUpdate (s : State) : State :=
  let m := s.ru.mirror
  if m.begins then
    enqueueAccesses .ru (updateAccesses imageBase (oddCount m.count) (imageWrites m.full m.shadow s.imageValues))
      (abandonIfFull .ru m.full { s with ru := { s.ru with mirror := m.begun s.imageValues } })
  else s

/-- A crescendo mirror update begins (R83). -/
def beginCrescendoUpdate (s : State) : State :=
  let m := s.cu.mirror
  if m.begins then
    enqueueAccesses .cu
      (updateAccesses crescendoBase (oddCount m.count) (crescendoWrites m.full m.shadow s.crescendoValues))
      (abandonIfFull .cu m.full { s with cu := { s.cu with mirror := m.begun s.crescendoValues } })
  else s

/-- A motion mirror update begins; it shows the faults declared so far (R116, R117). -/
def beginMotionUpdate (s : State) : State :=
  let m := s.ms.mirror
  if m.begins then
    enqueueAccesses .ms (updateAccesses motionBase (oddCount m.count) (motionWrites m.full m.shadow s.motionValues))
      (abandonIfFull .ms m.full
        { s with ms := { s.ms with
            mirror := m.begun s.motionValues
            showing := s.ms.declared
            declared := false } })
  else s

/-- A link mirror update begins; it shows the board changes so far (R134). -/
def beginLinkUpdate (s : State) : State :=
  let m := s.lc.mirror
  if m.begins then
    enqueueAccesses .lc (updateAccesses linkBase (oddCount m.count) (linkWrites m.full m.shadow 0 s.linkValues))
      (abandonIfFull .lc m.full
        { s with lc := { s.lc with
            mirror := m.begun s.linkValues
            showing := s.lc.changed
            changed := false } })
  else s

/-- Crescendo values that mark the mirrors stale: all but F (R83). A hand-over that makes the program of the same number
active again, its S the same, changes none of them and marks nothing for that alone, even where its contents have
changed (DESIGN CHOICE, log entry 38). -/
def CrescendoValues.marking (v : CrescendoValues) : CrescendoValues := { v with f := 0 }

/-- The groups whose values one event changed are marked stale (R36, R83, R116, R134). A command that holds several
events marks at each that could undo what one before it changed: at every take (`takeUpTo`) and where acknowledged
commands leave their list (`pollAcknowledged`); `finish` marks for all the rest (log entry 42). -/
def markStale (before s : State) : State :=
  { s with
    ru := { s.ru with mirror := s.ru.mirror.mark (before.imageValues == s.imageValues) }
    cu := { s.cu with mirror := s.cu.mirror.mark (before.crescendoValues.marking == s.crescendoValues.marking) }
    ms := { s.ms with mirror := s.ms.mirror.mark (before.motionValues == s.motionValues) }
    lc := { s.lc with mirror := s.lc.mirror.mark (before.linkValues == s.linkValues) } }

/-- The updates that can begin do. -/
def beginUpdates (s : State) : State :=
  beginLinkUpdate (beginMotionUpdate (beginCrescendoUpdate (beginImageUpdate s)))

/-- The end of every command: what the event changed is marked stale, and the updates that can begin do. While
RESET# is low the part marks and writes nothing (R155). -/
def finish (before s : State) : Host.Outcome State Fault Refusal :=
  .next (if s.inReset then s else beginUpdates (markStale before s))

/-! ### Mirrors without a count (R42, R44, R45, R51, R57, R61, R62, R163) -/

/-- The engine state (R45): what the engine has in flight. -/
def EngineJob.engineState : EngineJob → EngineState
  | .runningTuttiRead | .recallRead .. | .followRead .. | .lockRead .. | .tuttiRead .. => .reading
  | .slotWrite .. | .tuttiWrite .. => .writing

def State.engineState (s : State) : EngineState :=
  match s.ce.job with
  | none => .idle
  | some j => j.engineState

/-- The Combination Engine writes one byte of its mirrors: level 0, capture enable 1, capture scope 2, queue
depth 3, undo depth 4, engine state 5 (R163). -/
def writeEngineMirror (place value : Nat) (s : State) : State :=
  startWrite .ce .mirror (engineBase + place) (bytesLE 1 value) s

/-- The current level takes a value, and its mirror is written, whatever the level was (R42, R93). -/
def setLevel (v : Nat) (s : State) : State := writeEngineMirror 0 v { s with ce := { s.ce with level := v } }

/-- Capture enable and capture scope take their values, and both mirrors are written (R51). -/
def setCapture (enable : Bool) (scope : Byte) (s : State) : State :=
  writeEngineMirror 2 scope.toNat (writeEngineMirror 1 enable.toNat
    { s with ce := { s.ce with captureEnable := enable, captureScope := scope } })

def setActionQueue (q : List Action) (s : State) : State :=
  let s' := { s with ce := { s.ce with queue := q } }
  if q.length = s.ce.queue.length then s' else writeEngineMirror 3 q.length s'

def setUndo (u : List StopImage) (s : State) : State :=
  let s' := { s with ce := { s.ce with undo := u } }
  if u.length = s.ce.undo.length then s' else writeEngineMirror 4 u.length s'

def setJob (j : Option EngineJob) (s : State) : State :=
  let s' := { s with ce := { s.ce with job := j } }
  if s'.engineState = s.engineState then s' else writeEngineMirror 5 s'.engineState.code s'

/-- All six mirrors of the Combination Engine, as at an entry to LOADING (R59). -/
def writeEngineMirrors (s : State) : State :=
  startWrite .ce .mirror engineBase
    (bytesLE 1 s.ce.level ++ bytesLE 1 s.ce.captureEnable.toNat ++ bytesLE 1 s.ce.captureScope.toNat ++
      bytesLE 1 s.ce.queue.length ++ bytesLE 1 s.ce.undo.length ++ bytesLE 1 s.engineState.code) s

/-- The position as its mirror and the journal show it: 0xFFFF for NONE (R61). -/
def positionCode : Option Nat → Nat
  | none => 0xFFFF
  | some p => p

/-- The position takes a value, and its mirror is written, whatever the position was (R65, R66, R67). -/
def setPosition (p : Option Nat) (s : State) : State :=
  startWrite .sq .mirror sequencerBase (bytesLE 2 (positionCode p)) { s with sq := { s.sq with position := p } }

def setStepList (l : List StepRequest) (s : State) : State :=
  let s' := { s with sq := { s.sq with list := l } }
  if l.length = s.sq.list.length then s'
  else startWrite .sq .mirror (sequencerBase + 2) (bytesLE 1 l.length) s'

/-- The three mirrors of the error report (R1, R13, R163), written for one purpose. -/
def writeReport (p : Purpose) (s : State) : State :=
  startWrite .dl p reportBase
    (bytesLE 1 s.dl.errorCode ++ bytesLE 1 s.dl.recordClass ++ bytesLE 2 s.dl.recordIndex) s

end Sys2Proof.Machine
end

