-- ==== Sys2Proof/Machine/Console.lean ====
section
/-! DEFINITION. The console processor's side of the dual-ported console memory (00_scope.md, R136). -/

namespace Sys2Proof.Machine

/-- CONSOLE_PROCESSOR_WRITE (R136): the console processor writes bytes in ascending address, in any part state and in
any region. Each command is one moment; a write that the part may see in part is sent as several commands. -/
def execConsoleProcessorWrite (addr : BitVec 21) (bytes : List Byte) (s : State) : Host.Outcome State Fault Refusal :=
  if addr.toNat + bytes.length ≤ Config.memorySize then
    finish s { s with mem := s.mem.writeBytes addr.toNat bytes }
  else .fault (.outsideConsoleMemory Config.memorySize)

end Sys2Proof.Machine
end

