-- ==== Sys2Proof/Machine/JournalWriter.lean ====
section
/-! DEFINITION. The Journal Writer's commands (10_the_journal_and_the_attention_line.md): the full test, the writes of
an entry and of the counts. -/

namespace Sys2Proof.Machine

/-- The 16 bytes of an entry with its sequence number (R148, R162). -/
def JournalEntry.bytes (e : JournalEntry) (sequence : BitVec 32) : List Byte :=
  bytesLE 4 sequence.toNat ++ bytesLE 4 e.time.toNat ++ bytesLE 1 e.kind.code ++ bytesLE 1 e.origin.code ++
    bytesLE 1 e.level ++ bytesLE 1 e.piston ++ bytesLE 2 e.argA ++ bytesLE 2 e.argB

/-- The journal is full: 256 or more entries are unconsumed, modulo 2^32 (R146). -/
def journalFull (written consumed : BitVec 32) : Bool := decide (Config.journalSize ≤ (written - consumed).toNat)

/-- What the Journal Writer is doing changes. -/
def setWriter (p : WriterPhase) (s : State) : State := { s with jw := { s.jw with phase := p } }

/-- The consumed count has been read for an entry: it is written at its index, or lost (R147). -/
def writeEntry (e : JournalEntry) (s : State) : State :=
  if journalFull s.jw.written (BitVec.ofNat 32 (natLE (s.readBytes .jw))) then
    takeEntry (loseEntry (setWriter .idle s))
  else
    startWrite .jw .entry (journalEntryAddr s.jw.written.toNat) (e.bytes s.jw.written) (setWriter (.entryWrite e) s)

/-- The entry has been written: the written count plus one is kept and written to the header (R147). -/
def advanceWritten (s : State) : State :=
  startWrite .jw .written journalHeaderBase (bytesLE 4 (s.jw.written + 1).toNat)
    (setWriter .countWrite { s with jw := { s.jw with written := s.jw.written + 1 } })

/-! ### Commands -/

/-- CONSUMED_COUNT_READ_COMPLETION (R147). -/
def execConsumedCountReadCompletion (s : State) : Host.Outcome State Fault Refusal :=
  match s.jw.phase with
  | .countRead e => finish s (writeEntry e (finishRead .jw s))
  | _ => finish s s

/-- JOURNAL_ENTRY_WRITE_COMPLETION (R147). -/
def execJournalEntryWriteCompletion (s : State) : Host.Outcome State Fault Refusal :=
  match s.jw.phase with
  | .entryWrite _ => finish s (advanceWritten (finishWrite .jw .entry s))
  | _ => finish s s

/-- WRITTEN_COUNT_WRITE_COMPLETION (R147): JNL is raised, and the next entry is taken. -/
def execWrittenCountWriteCompletion (s : State) : Host.Outcome State Fault Refusal :=
  match s.jw.phase with
  | .countWrite => finish s (takeEntry (setWriter .idle (raise .jnl (finishWrite .jw .written s))))
  | _ => finish s s

/-- The oldest lost-count write has been made: the bytes of the others alone wait. -/
def BlockPort.lostLeft (left : Nat) (q : BlockPort) : Bool :=
  decide ((q.queue.filter (Access.isFor .lost)).length ≤ 2 * left)

/-- LOST_COUNT_WRITE_COMPLETION (R147): LOST is raised for every entry lost. -/
def execLostCountWriteCompletion (s : State) : Host.Outcome State Fault Refusal :=
  if s.jw.lostWrites = 0 then finish s s
  else
    let s₁ := serveUntil .jw (BlockPort.lostLeft (s.jw.lostWrites - 1)) s.port.waiting s
    finish s (raise .lost { s₁ with jw := { s₁.jw with lostWrites := s₁.jw.lostWrites - 1 } })

/-- JOURNAL_HEADER_CLEAR_WRITE_COMPLETION (R149): the zeros are written, and the first entry may be taken. -/
def execJournalHeaderClearWriteCompletion (s : State) : Host.Outcome State Fault Refusal :=
  match s.jw.phase with
  | .clearing => finish s (takeEntry (setWriter .idle (finishWrite .jw .clear s)))
  | _ => finish s s

end Sys2Proof.Machine
end

