-- ==== Sys2Proof/Machine/Images.lean ====
section
/-! DEFINITION. The Registration Unit (02_registration_images.md): the speaking image, the changes of RI, CI, TI
and the tutti flag, and the end of an image mirror update. -/

namespace Sys2Proof.Machine

/-- The crescendo image of the current stage; empty while the unit holds no images (R21, R84). -/
def State.cri (s : State) : StopImage := s.cu.images.getD s.cu.stage 0

/-- What the speaking image is formed to be: the union of RI, CRI and, while the tutti flag is on, TI (R22). -/
def State.speaking (s : State) : StopImage :=
  s.ru.ri ||| s.cri ||| (if s.ru.tutti then s.ce.ti else 0)

/-- The RU recomputes the speaking image (R22). -/
def recompute (s : State) : State := { s with ru := { s.ru with si := s.speaking } }

/-- RI takes a new value, and SI with it (R22). -/
def setRegistration (image : StopImage) (s : State) : State :=
  recompute { s with ru := { s.ru with ri := image } }

/-- The tutti flag takes a new value, and SI with it (R19, R22). -/
def setTutti (on : Bool) (s : State) : State := recompute { s with ru := { s.ru with tutti := on } }

/-- TI takes a new value, and SI with it (R20, R22). -/
def setTuttiImage (image : StopImage) (s : State) : State :=
  recompute { s with ce := { s.ce with ti := image } }

/-- One CI bit takes a new value (R18). -/
def setContactBit (stop : Nat) (b : Bool) (s : State) : State :=
  { s with cs := { s.cs with ci := setBit s.cs.ci stop b } }

/-- The image mirrors are marked stale whatever changed (R34, R35; log entry 17). -/
def markImages (s : State) : State := { s with ru := { s.ru with mirror := { s.ru.mirror with stale := true } } }

/-- `image` with the stops of `mask` taken from `bits`. -/
def mergeImage (image mask bits : StopImage) : StopImage := (image &&& ~~~mask) ||| (bits &&& mask)

/-- IMAGE_MIRROR_UPDATE (R36, R37): the update in progress makes its last writes, the count becomes even, and IMG
is raised; the next update begins where the mirrors are stale again. -/
def execImageMirrorUpdate (s : State) : Host.Outcome State Fault Refusal :=
  if s.ru.mirror.updating then
    let s₁ := finishWrite .ru .mirror s
    finish s (raise .img { s₁ with ru := { s₁.ru with mirror := s₁.ru.mirror.ended } })
  else finish s s

end Sys2Proof.Machine
end

