-- ==== Sys2Proof/Machine/Crescendo.lean ====
section
/-! DEFINITION. The Crescendo Unit (05_the_crescendo.md), and the reading of a crescendo program, which it shares
with the Description Loader (R10, R76, R78). -/

namespace Sys2Proof.Machine

/-! ### Filter, position and stage (R71 to R75) -/

/-- The filter in LIVE (R71): the difference, divided by 2^k and truncated toward zero, is added to F. -/
def filterStep (k f raw : Nat) : Nat :=
  ((f : Int) + ((raw : Int) * 16 - (f : Int)).tdiv ((2 : Int) ^ k)).toNat

/-- The position Q of F between the calibration ends (R72). The numerator is negative where F is below 16 × lo,
and Q is then 0. -/
def positionOf (lo hi f : Nat) : Nat := min ((f - 16 * lo) * 1024 / (16 * (hi - lo))) 1024

/-- The boundary b(j) of a program of S stages (R73). -/
def boundary (stages j : Nat) : Nat := j * 1024 / (stages + 1)

/-- The stage read from a value x of 0 or more, clamped to 1024: the largest j with b(j) ≤ x (R73). -/
def stageAt (stages x : Nat) : Nat :=
  ((List.range (stages + 1)).filter (fun j => decide (boundary stages j ≤ min x 1024))).foldl max 0

/-- The zone width W (R73). -/
def zoneWidth (stages : Nat) : Nat := 1024 / (stages + 1)

/-- The effective hysteresis He (R74). -/
def effectiveHysteresis (hysteresis stages : Nat) : Nat := min hysteresis (zoneWidth stages / 2)

/-- The stage rule (R75): the stage that position q gives from stage c. A value below 0 is taken as 0. -/
def stageRule (stages he q c : Nat) : Nat :=
  if stageAt stages (q - he) > c then stageAt stages (q - he)
  else if stageAt stages (q + he) < c then stageAt stages (q + he)
  else c

/-- The stage the unit's rule gives; 0 while no program is active (R75). -/
def State.ruledStage (s : State) (q : Nat) : Nat :=
  match s.cu.program with
  | none => 0
  | some _ =>
    stageRule s.cu.stageCount (effectiveHysteresis s.desc.header.hysteresis s.cu.stageCount) q s.cu.stage

/-- The unit takes a position and applies the stage rule; the RU gets the new CRI in the same event (R75). -/
def takePosition (q : Nat) (s : State) : State :=
  recompute { s with cu := { s.cu with q := q, stage := s.ruledStage q } }

/-! ### Shoe samples (R69, R70) -/

/-- F after a valid sample: filtered in LIVE, set afresh in NONE and HELD (R70, R71). -/
def Signal.sampled (k raw : Nat) : Signal → Nat
  | .live f => filterStep k f raw
  | .none | .held _ => raw * 16

/-- A shoe sample (R69): ignored where its valid flag is clear or its raw value above 4095. -/
def shoeSample (valid : Bool) (raw : Nat) (s : State) : State :=
  if valid && decide (raw ≤ 4095) then
    let f := s.cu.signal.sampled s.desc.header.filterShift raw
    takePosition (positionOf s.cu.lo s.cu.hi f) { s with cu := { s.cu with signal := .live f } }
  else s

/-- The shoe board becomes ABSENT or MISMATCH (R70). -/
def Signal.lost : Signal → Signal
  | .live f => .held f
  | .none => .none
  | .held f => .held f

def loseShoe (s : State) : State := { s with cu := { s.cu with signal := s.cu.signal.lost } }

/-! ### Reading a program (R76, R78) -/

/-- What a field read of a program gives. -/
inductive ProgramStep where
  /-- a check fails: 0 at the stage count, j in stage record j (R79) -/
  | failed (where' : Nat)
  | more (read : ProgramRead)
  | whole (stages : List (List Nat))
  deriving DecidableEq, Repr

/-- A stage record has been read whole. -/
def ProgramRead.endStage (r : ProgramRead) (offset : Nat) (stage : List Nat) : ProgramStep :=
  let stages := r.stages ++ [stage]
  if stages.length = r.total then .whole stages
  else .more { r with field := .stopCount, offset := offset, stages := stages, current := [] }

/-- The value of the next field is checked as it is read (R10, R78): S in 1 to 60, every n in 0 to 32, every stop
number below N. -/
def ProgramRead.take (n : Nat) (r : ProgramRead) (v : Nat) : ProgramStep :=
  match r.field with
  | .stageCount =>
    if 1 ≤ v ∧ v ≤ 60 then .more { r with field := .stopCount, offset := r.offset + 2, total := v }
    else .failed 0
  | .stopCount =>
    if v > 32 then .failed (r.stages.length + 1)
    else if v = 0 then r.endStage (r.offset + 2) []
    else .more { r with field := .stopNumber v, offset := r.offset + 2, current := [] }
  | .stopNumber left =>
    if v ≥ n then .failed (r.stages.length + 1)
    else if left ≤ 1 then r.endStage (r.offset + 2) (r.current ++ [v])
    else .more { r with
      field := .stopNumber (left - 1), offset := r.offset + 2, current := r.current ++ [v] }

/-- CRI(0) to CRI(S): each stage keeps the stops of the stages below it (R76). -/
def stageImages (below : StopImage) : List (List Nat) → List StopImage
  | [] => [below]
  | stage :: stages => below :: stageImages (below ||| imageOfStops stage) stages

/-! ### Program switch (R78, R79) -/

/-- The read of the next field of a program load starts. -/
def readProgramField (l : ProgramLoad) (s : State) : State :=
  startRead .cu (programAddr l.program + l.read.offset) 2 { s with cu := { s.cu with loading := some l } }

/-- A CRESC_PROGRAM request is taken (R78). One that meets both refusals, an argument above 3 while a program load is in
progress, is refused RANGE (DESIGN CHOICE, log entry 40). -/
def startProgram (cell program : Nat) (s : State) : State :=
  if program > 3 then complete cell .range 0 s
  else match s.cu.loading with
    | some _ => complete cell .busy 0 s
    | none => readProgramField ⟨program, cell, {}⟩ s

/-- The stage a program switch sets (R79): r(Q) without hysteresis, or 0 in NONE. -/
def State.switchedStage (s : State) (stages : Nat) : Nat :=
  match s.cu.signal with
  | .none => 0
  | .live _ | .held _ => stageAt stages s.cu.q

/-- Every check of a program load has passed: the program becomes active (R79, R82). -/
def finishProgram (l : ProgramLoad) (stages : List (List Nat)) (s : State) : State :=
  let stage := s.switchedStage stages.length
  complete l.cell .ok stage
    (journal
      { kind := .crescProgram, origin := .consoleProcessor, level := s.ce.level, argA := l.program, argB := stage }
      (recompute { s with cu := { s.cu with
        program := some l.program
        stageCount := stages.length
        images := stageImages 0 stages
        stage := stage
        loading := none } }))

/-- A field of the program has been read (R78, R79). -/
def takeProgramField (l : ProgramLoad) (s : State) : State :=
  match l.read.take s.desc.header.stops (natLE (s.readBytes .cu)) with
  | .failed j => complete l.cell .range j { s with cu := { s.cu with loading := none } }
  | .more read => readProgramField { l with read := read } s
  | .whole stages => finishProgram l stages s

/-! ### Calibration (R81, R82) -/

/-- The crescendo mirrors are marked stale whatever changed (R81). -/
def markCrescendo (s : State) : State := { s with cu := { s.cu with mirror := { s.cu.mirror with stale := true } } }

/-- A calibration that succeeds (R81, step 4). -/
def calibrated (cell : Nat) (high : Bool) (v : Nat) (s : State) : State :=
  let lo := if high then s.cu.lo else v
  let hi := if high then v else s.cu.hi
  complete cell .ok v
    (journal
      { kind := .calibrated, origin := .consoleProcessor, level := s.ce.level, argA := high.toNat, argB := v }
      (markCrescendo
        (takePosition (positionOf lo hi s.cu.signal.f) { s with cu := { s.cu with lo := lo, hi := hi } })))

/-- A CRESC_CALIBRATE request is taken (R81). -/
def calibrate (cell which : Nat) (s : State) : State :=
  if which > 1 then complete cell .range 0 s
  else match s.cu.signal with
    | .none => complete cell .noSignal 0 s
    | .live f | .held f =>
      let v := f / 16
      if which = 0 then
        if v + 256 ≤ s.cu.hi then calibrated cell false v s else complete cell .range v s
      else if s.cu.lo + 256 ≤ v then calibrated cell true v s else complete cell .range v s

/-! ### Commands -/

/-- PROGRAM_READ_COMPLETION (R78, R79): the field read of the program load completes and is checked. -/
def execProgramReadCompletion (s : State) : Host.Outcome State Fault Refusal :=
  match s.cu.loading with
  | none => finish s s
  | some l => finish s (takeProgramField l (finishRead .cu s))

/-- CRESCENDO_MIRROR_UPDATE (R83): the update in progress makes its last writes, the count becomes even, and CRES
is raised. -/
def execCrescendoMirrorUpdate (s : State) : Host.Outcome State Fault Refusal :=
  if s.cu.mirror.updating then
    let s₁ := finishWrite .cu .mirror s
    finish s (raise .cres { s₁ with cu := { s₁.cu with mirror := s₁.cu.mirror.ended } })
  else finish s s

end Sys2Proof.Machine
end

