-- ==== Sys2Proof/Machine/Motion.lean ====
section
/-! DEFINITION. The Motion Scheduler (07_stop_motion.md), with the Registration Unit's application of a change
set (R23), for the two are one event. -/

namespace Sys2Proof.Machine

/-! ### Dispatch (R103, R104, R105) -/

/-- The class of a stop in current units. -/
def Desc.currentClass (d : Desc) (stop : Nat) : Nat := (d.stop stop).currentClass

/-- The coil command of an entry (R102). -/
def Desc.coilCommand (d : Desc) (e : MotionEntry) : CoilCommand :=
  ⟨e.stop, (d.stop e.stop).coil, e.target, (d.stop e.stop).pulse⟩

/-- What dispatch counts and fills: the committed current, the energised count and the boards' outgoing lists. -/
structure Dispatch where
  committed : Nat
  energised : Nat
  boards : Vector BoardLink 16
  deriving DecidableEq, Repr

/-- The three conditions of R103 on a dispatch head. -/
def Dispatch.admits (d : Desc) (a : Dispatch) (e : MotionEntry) : Bool :=
  decide ((a.boards[boardPlace (d.stop e.stop).board]).outgoing.length < Config.outgoingListSize) &&
  decide (a.energised < Config.maxEnergised) &&
  (decide (a.committed + d.currentClass e.stop ≤ d.header.budget) || a.committed == 0)

/-- A command joins the tail of its board's outgoing list (R129). -/
def joinOutgoing (boards : Vector BoardLink 16) (i : Fin 16) (c : CoilCommand) : Vector BoardLink 16 :=
  boards.set i { boards[i] with outgoing := boards[i].outgoing ++ [c] } i.isLt

/-- Dispatch of one entry (R103). -/
def Dispatch.take (d : Desc) (a : Dispatch) (e : MotionEntry) : Dispatch where
  committed := a.committed + d.currentClass e.stop
  energised := a.energised + 1
  boards := joinOutgoing a.boards (boardPlace (d.stop e.stop).board) (d.coilCommand e)

/-- The MS dispatches heads in queue order until one fails a condition (R103). -/
def dispatchQueue (d : Desc) : Dispatch → List MotionEntry → Dispatch × List MotionEntry
  | a, [] => (a, [])
  | a, e :: es =>
    if e.isQueued then
      if a.admits d e then
        let r := dispatchQueue d (a.take d e) es
        (r.1, { e with state := .sent } :: r.2)
      else (a, e :: es)
    else
      let r := dispatchQueue d a es
      (r.1, e :: r.2)

/-- The MS examines dispatch; examination takes place in RUNNING (R104). -/
def examineDispatch (s : State) : State :=
  if s.part = .running then
    let r := dispatchQueue s.desc ⟨s.ms.committed, s.ms.energised, s.lc.boards⟩ s.ms.queue
    { s with
      ms := { s.ms with queue := r.2, committed := r.1.committed, energised := r.1.energised }
      lc := { s.lc with boards := r.1.boards } }
  else s

/-! ### Enqueueing (R101) and change sets (R23) -/

/-- The entry of a stop. -/
def Motion.entryOf (m : Motion) (stop : Nat) : Option MotionEntry := m.queue.find? (fun e => e.stop == stop)

/-- The entry a stop's new RI bit gives (R101): a QUEUED entry whose target now equals CI is removed. -/
def MotionEntry.retarget (ci : StopImage) (target : Bool) (e : MotionEntry) : Option MotionEntry :=
  if e.isQueued then
    if target = ci.getLsbD e.stop then none else some { e with target := target }
  else some { e with target := target, reaim := true }

/-- New entries for stops: offs first, then ons, each in ascending stop number (R101). -/
def newEntries (stops ri : StopImage) : List MotionEntry :=
  (stopsOf (stops &&& ~~~ri)).map (fun n => ⟨n, false, .queued, false, false⟩) ++
  (stopsOf (stops &&& ri)).map (fun n => ⟨n, true, .queued, false, false⟩)

/-- The stops that have an entry. -/
def Motion.stopsQueued (m : Motion) : StopImage := imageOfStops (m.queue.map MotionEntry.stop)

/-- The MS takes a change set of MOVED stops, whose new bits are in RI, as one event (R101). -/
def enqueueMoves (moved : StopImage) (s : State) : State :=
  let kept := s.ms.queue.filterMap (fun e =>
    if moved.getLsbD e.stop then e.retarget s.cs.ci (s.ru.ri.getLsbD e.stop) else some e)
  let fresh := moved &&& ~~~s.ms.stopsQueued &&& (s.ru.ri ^^^ s.cs.ci)
  examineDispatch { s with ms := { s.ms with queue := kept ++ newEntries fresh s.ru.ri } }

/-- A change set of one action (R23): the stops it sets, their new bits, and whether the tutti flag goes off. -/
structure ChangeSet where
  mask : StopImage
  bits : StopImage
  tuttiOff : Bool := false
  deriving DecidableEq, Repr

/-- The stops that actions leave out: the faulted and the unreachable (R23, R47). -/
def State.heldStops (s : State) : StopImage := s.ms.fault ||| s.ms.unreachable

/-- RI as a change set leaves it: the bits of faulted and unreachable stops are held (R23, step 1). -/
def State.registrationAfter (s : State) (c : ChangeSet) : StopImage :=
  mergeImage s.ru.ri (c.mask &&& ~~~s.heldStops) c.bits

/-- The MOVED stops whose RI bit a change set changes: those handed to the MS (R23, step 4). -/
def State.movedBy (s : State) (c : ChangeSet) : StopImage :=
  (s.ru.ri ^^^ s.registrationAfter c) &&& s.desc.movedStops

/-- The count of moves enqueued (R23, R46). -/
def State.movesOf (s : State) (c : ChangeSet) : Nat := (stopsOf (s.movedBy c)).length

/-- The RU applies a change set as one event (R23). -/
def applyChangeSet (c : ChangeSet) (s : State) : State :=
  enqueueMoves (s.movedBy c)
    (setTutti (s.ru.tutti && !c.tuttiOff) (setRegistration (s.registrationAfter c) s))

/-! ### Current, pulse end and settle end (R102, R108, R109, R110) -/

/-- The entries of the motion queue whose stop is not this one. -/
def withoutStop (stop : Nat) (q : List MotionEntry) : List MotionEntry := q.filter (fun e => e.stop != stop)

/-- The motion queue with the entry of a stop changed in its place. -/
def updateStop (stop : Nat) (f : MotionEntry → MotionEntry) (q : List MotionEntry) : List MotionEntry :=
  q.map (fun e => if e.stop == stop then f e else e)

/-- A time on the console clock some milliseconds on, modulo 2^32. -/
def State.after (s : State) (ms : Nat) : BitVec 32 := s.clock + BitVec.ofNat 32 ms

/-- The pulse of a stop's entry ends (R108). -/
def endPulse (stop : Nat) (s : State) : State :=
  examineDispatch
    { s with ms := { s.ms with
        committed := s.ms.committed - s.desc.currentClass stop
        energised := s.ms.energised - 1
        queue := updateStop stop (fun e => { e with state := .settling (s.after (s.desc.stop stop).settle) })
          s.ms.queue } }

/-- An entry goes to the tail as QUEUED (R109). -/
def sendToTail (e : MotionEntry) (s : State) : State :=
  examineDispatch { s with ms := { s.ms with
    queue := withoutStop e.stop s.ms.queue ++ [{ e with state := .queued, reaim := false }] } }

/-- The motion mirrors are marked stale whatever changed (R110, R113, R114, R118). -/
def markMotion (s : State) : State := { s with ms := { s.ms with mirror := { s.ms.mirror with stale := true } } }

/-- A motion fault (R110): the entry is removed, the flag is set, RI takes the stop's CI bit (R31), the fault is
journaled, and FLT is to follow (R117). -/
def declareFault (e : MotionEntry) (s : State) : State :=
  let s₁ := { s with ms := { s.ms with
    queue := withoutStop e.stop s.ms.queue
    fault := setBit s.ms.fault e.stop true
    declared := true } }
  markMotion
    (journal { kind := .motionFault, level := s.ce.level, argA := e.stop, argB := e.target.toNat }
      (setRegistration (setBit s.ru.ri e.stop (s.cs.ci.getLsbD e.stop)) s₁))

/-- The settle of an entry ends: CI is compared with the target (R109). -/
def endSettle (e : MotionEntry) (s : State) : State :=
  if s.cs.ci.getLsbD e.stop = e.target then
    { s with ms := { s.ms with queue := withoutStop e.stop s.ms.queue } }
  else if e.reaim then sendToTail e s
  else if e.retried then declareFault e s
  else sendToTail { e with retried := true } s

/-! ### Acknowledged commands (R106) -/

/-- The entry of an acknowledged command becomes PULSING, its timer running for the stop's pulse length. -/
def startPulse (s : State) (c : CoilCommand) : State :=
  { s with ms := { s.ms with
      queue := updateStop c.stop
        (fun e => if e.state = .sent then { e with state := .pulsing (s.after (s.desc.stop c.stop).pulse) } else e)
        s.ms.queue } }

/-- Every command of an acknowledged frame, in list order; then dispatch is examined (R106, R128). -/
def startPulses (commands : List CoilCommand) (s : State) : State :=
  examineDispatch (commands.foldl startPulse s)

/-! ### Hand moves (R27, R28, R29, R111) -/

/-- An accepted change of a MOVED stop's sense contact, taken by the RU and the MS as one event. -/
def handMove (stop : Nat) (closed : Bool) (s : State) : State :=
  let s₁ := setContactBit stop closed s
  match s₁.ms.entryOf stop with
  | none =>
    setRegistration (setBit s₁.ru.ri stop closed)
      { s₁ with ms := { s₁.ms with fault := setBit s₁.ms.fault stop false } }
  | some e =>
    if e.isQueued then
      let s₂ := { s₁ with ms := { s₁.ms with queue := withoutStop stop s₁.ms.queue } }
      if s₁.ms.dispatchHead = some e then examineDispatch s₂ else s₂
    else s₁

/-! ### Board loss and return (R113, R114) -/

/-- The classes of the entries that are SENT or PULSING among these (R102). -/
def committedOf (d : Desc) : List MotionEntry → Nat
  | [] => 0
  | e :: es => (if e.isEnergised then d.currentClass e.stop else 0) + committedOf d es

/-- How many of these entries are SENT or PULSING (R102). -/
def energisedOf (q : List MotionEntry) : Nat := (q.filter MotionEntry.isEnergised).length

/-- The MS's part in a jamb board's change to ABSENT or MISMATCH (R113); the Link Controller has emptied the
board's outgoing list. -/
def loseBoard (i : Fin 16) (s : State) : State :=
  let onBoard := s.desc.stopsOnBoard i
  let lost := s.ms.queue.filter (fun e => onBoard.getLsbD e.stop)
  markMotion (examineDispatch
    { s with ms := { s.ms with
        queue := s.ms.queue.filter (fun e => !onBoard.getLsbD e.stop)
        committed := s.ms.committed - committedOf s.desc lost
        energised := s.ms.energised - energisedOf lost
        unreachable := s.ms.unreachable ||| onBoard } })

/-- The RU adopts a board: RI of its MOVED stops is taken from CI (R34). -/
def adoptBoard (i : Fin 16) (s : State) : State :=
  markImages (setRegistration
    (mergeImage s.ru.ri (s.desc.stopsOnBoard i &&& s.desc.movedStops) s.cs.ci)
    { s with ms := { s.ms with adopted := s.ms.adopted.set i true i.isLt } })

/-- The MS resynchronises a board: an entry for each MOVED stop of it whose CI differs from RI, whose fault flag
it clears (R35, R114). No stop of the board has an entry before (R100), and none gets a second one (R98). -/
def resynchronise (i : Fin 16) (s : State) : State :=
  let astray := s.desc.stopsOnBoard i &&& s.desc.movedStops &&& (s.ru.ri ^^^ s.cs.ci)
  markImages (examineDispatch { s with ms := { s.ms with
    fault := s.ms.fault &&& ~~~astray
    queue := s.ms.queue ++ newEntries (astray &&& ~~~s.ms.stopsQueued) s.ru.ri } })

/-- The MS's part in a jamb board's change to PRESENT, the contacts having been taken as read (R114). -/
def regainBoard (i : Fin 16) (s : State) : State :=
  let s₁ := { s with ms := { s.ms with unreachable := s.ms.unreachable &&& ~~~s.desc.stopsOnBoard i } }
  markMotion (if s.ms.adopted[i] then resynchronise i s₁ else adoptBoard i s₁)

/-! ### Commands -/

/-- PULSE_END (R108): the console clock reaches the expiry of the stop's PULSING entry. Where the stop has none,
or another event is due sooner, the event does not take place (log entry 3). -/
def execPulseEnd (stop : Nat) (s : State) : Host.Outcome State Fault Refusal :=
  match s.ms.entryOf stop with
  | none => finish s s
  | some e =>
    match e.state with
    | .pulsing expiry =>
      if s.isNextDue expiry then finish s (endPulse stop (reachTime expiry s)) else finish s s
    | _ => finish s s

/-- SETTLE_END (R109): the console clock reaches the expiry of the stop's SETTLING entry. -/
def execSettleEnd (stop : Nat) (s : State) : Host.Outcome State Fault Refusal :=
  match s.ms.entryOf stop with
  | none => finish s s
  | some e =>
    match e.state with
    | .settling expiry =>
      if s.isNextDue expiry then finish s (endSettle e (reachTime expiry s)) else finish s s
    | _ => finish s s

/-- MOTION_MIRROR_UPDATE (R116, R117): the update in progress makes its last writes, the count becomes even, and
FLT is raised if the update shows a newly declared fault. -/
def execMotionMirrorUpdate (s : State) : Host.Outcome State Fault Refusal :=
  if s.ms.mirror.updating then
    let s₁ := finishWrite .ms .mirror s
    let s₂ := { s₁ with ms := { s₁.ms with mirror := s₁.ms.mirror.ended, showing := false } }
    finish s (if s.ms.showing then raise .flt s₂ else s₂)
  else finish s s

end Sys2Proof.Machine
end

