-- ==== Sys2Proof/Machine/Combination.lean ====
section
/-! DEFINITION. The Combination Engine (03_combination_memory_and_actions.md): slots, levels, the action queue,
each action, and the undo stack. -/

namespace Sys2Proof.Machine

/-! ### Slots (R39, R40, R41) -/

/-- What the engine judges a slot it has read to be (R40). -/
inductive SlotJudgement where
  | empty
  | corrupt
  | sound (scope : Byte) (image : StopImage)
  deriving DecidableEq, Repr

/-- The judgement on the 56 bytes of a slot as read (R40, R161). -/
def judgeSlot (bytes : List Byte) : SlotJudgement :=
  let scope := bytes.getD 1 0
  let check := BitVec.ofNat 16 (natLE ((bytes.drop 2).take 2))
  let image := imageOf ((bytes.drop 8).take 48)
  if bytes.getD 0 0 ≠ slotValid then .empty
  else if check = checkWord scope image then .sound scope image
  else .corrupt

/-- The writes of a slot in the order of R41: image, stamp, scope and check word, and the status last. -/
def slotAccesses (a : Nat) (scope : Byte) (stamp : BitVec 32) (image : StopImage) : List Access :=
  writeAccesses .slot (a + 8) (imageBytes image) ++
  writeAccesses .slot (a + 4) (bytesLE 4 stamp.toNat) ++
  writeAccesses .slot (a + 1) (scope :: bytesLE 2 (checkWord scope image).toNat) ++
  writeAccesses .slot a [slotValid]

/-- The 56 bytes of a slot as a completed write leaves them (R41, R161). -/
def slotBytes (scope : Byte) (stamp : BitVec 32) (image : StopImage) : List Byte :=
  slotValid :: scope :: bytesLE 2 (checkWord scope image).toNat ++ bytesLE 4 stamp.toNat ++ imageBytes image

/-- The registration as a capture copies it: the bits of stops N and above written 0 (R41). -/
def State.captureImage (s : State) : StopImage := s.ru.ri &&& firstStops s.desc.header.stops

/-- A divisional index and the division and piston it stands for (R39). -/
def pistonDivision (index : Nat) : Nat := (index - 48) / 10
def pistonNumber (index : Nat) : Nat := (index - 48) % 10
def divisionalIndex (d p : Nat) : Nat := 48 + 10 * d + p

/-- The bit of one division in a scope. -/
def divisionBit (d : Nat) : Byte := 1#8 <<< d

/-- The effective scope of a recall (R48). For a divisional index of a division d of D or above it selects no stop, and is
journaled as R48 defines it for every d: bit d where the slot's scope names d (DEDUCED, log entry 39). -/
def effectiveScope (index : Nat) (scope : Byte) : Byte :=
  if index < 48 then scope else scope &&& divisionBit (pistonDivision index)

/-- The scope a capture writes (R52, step 3). -/
def captureScopeOf (index : Nat) (scope : Byte) : Byte :=
  if index < 48 then scope else divisionBit (pistonDivision index)

/-! ### The action queue (R44, R46) -/

/-- The level and the piston of an action, where it has them (R44). -/
def ActionKind.level : ActionKind → Option Nat
  | .recall l _ | .capture l _ => some l
  | _ => none
def ActionKind.piston : ActionKind → Option Nat
  | .recall _ p | .capture _ p => some p
  | _ => none
/-- The stop of an action, where it has one (R44). -/
def ActionKind.stop : ActionKind → Option Nat
  | .reverse n | .stopSet n _ => some n
  | _ => none

/-- A record that finds the queue holding 8 is dropped and journaled, and its cell completed FULL with 0 (R44; the value
in the example of one sweep, 09_requests_from_the_console_processor.md). -/
def overrun (a : Action) (s : State) : State :=
  completeIf a.cell .full 0
    (journal
      { kind := .actionOverrun, origin := a.origin, level := a.kind.level.getD 0xFF
        piston := a.kind.piston.getD 0xFF, argA := a.kind.code, argB := a.kind.stop.getD 0 } s)

/-- The action the engine may take: the head of the queue, in IDLE and in RUNNING only (R45). -/
def State.nextAction (s : State) : Option Action :=
  if s.part = .running ∧ s.ce.job = none then s.ce.queue.head? else none

/-- The head of the queue is taken (R45). -/
def dropHead (s : State) : State := setActionQueue s.ce.queue.tail s

/-- A journal entry of the engine that concerns the tutti slot or no slot: the current level, piston 0xFF
(R46). -/
def State.engineEntry (s : State) (kind : JournalKind) (origin : Origin) (argA argB : Nat) : JournalEntry :=
  { kind := kind, origin := origin, level := s.ce.level, argA := argA, argB := argB }

/-- A journal entry of the engine that concerns a slot (R46). -/
def slotEntry (kind : JournalKind) (origin : Origin) (level piston argA argB : Nat) : JournalEntry :=
  { kind := kind, origin := origin, level := level, piston := piston, argA := argA, argB := argB }

/-- A snapshot of RI is pushed; a push onto 4 discards the oldest (R57). -/
def pushUndo (s : State) : State := setUndo ((s.ru.ri :: s.ce.undo).take Config.undoDepth) s

/-! ### Levels (R42) -/

/-- The level changes and the change is journaled: the new level, and in arg A the previous one (R42). -/
def changeLevel (v : Nat) (origin : Origin) (s : State) : State :=
  journal { kind := .level, origin := origin, level := v, argA := s.ce.level } (setLevel v s)

/-- The level LEVEL_UP leads to (R42). -/
def levelUp (levels level : Nat) : Nat := if level + 1 = levels then 0 else level + 1

/-- The level LEVEL_DOWN leads to (R42). -/
def levelDown (levels level : Nat) : Nat := if level = 0 then levels - 1 else level - 1

/-! ### What taking an action does (R47, R51 to R56, R58) -/

/-- The change set of a sound slot under an effective scope (R47, step 4). -/
def State.recallSet (s : State) (effective : Byte) (image : StopImage) : ChangeSet where
  mask := s.desc.stopsInScope effective &&& firstStops s.desc.header.stops &&& ~~~s.heldStops
  bits := image

/-- The follow division of a recall, where it has one: the index is divisional, of a division below D whose record
names a follow division (R49). -/
def State.followOf (s : State) (index : Nat) : Option Nat :=
  if index < 48 ∨ pistonDivision index ≥ s.desc.header.divisions then none
  else (s.desc.division (pistonDivision index)).follow

/-- Capture enable refuses an action from a piston (R51). -/
def State.refusesCapture (s : State) (origin : Origin) : Bool :=
  !s.ce.captureEnable && (origin == .thumb || origin == .toe)

/-- A RECALL is taken: the read of its slot starts (R47). -/
def recallAction (a : Action) (level piston : Nat) (s : State) : State :=
  startRead .ce (slotAddr level piston) 56 (setJob (some (.recallRead a level piston)) s)

/-- A CAPTURE is taken (R51, R52): it is refused DISABLED at that event, or the read of its level's lock byte starts.
Capture enable and capture scope are read here, and the scope that a later slot write uses goes with the read. -/
def captureAction (a : Action) (level piston : Nat) (s : State) : State :=
  if s.refusesCapture a.origin then
    completeIf a.cell .disabled (s.unstated a.cell)
      (journal (slotEntry .captureRefused a.origin level piston RequestResult.disabled.code 0) s)
  else
    startRead .ce (lockAddr level) 1
      (setJob (some (.lockRead a level piston (captureScopeOf piston s.ce.captureScope))) s)

/-- CANCEL's change set (R53). -/
def State.cancelSet (s : State) : ChangeSet where
  mask := firstStops s.desc.header.stops &&& ~~~s.desc.stopsWhere (fun r => r.exempt) &&& ~~~s.heldStops
  bits := 0
  tuttiOff := true

def cancelAction (a : Action) (s : State) : State :=
  let c := s.cancelSet
  completeIf a.cell .ok (s.movesOf c)
    (journal (s.engineEntry .cancelled a.origin (s.movesOf c) 0) (applyChangeSet c (pushUndo s)))

/-- A REVERSE or a STOP_SET of one stop to a new bit, or its refusal for a faulted or unreachable stop (R56). -/
def setStop (a : Action) (stop : Nat) (bit : Bool) (s : State) : State :=
  if s.heldStops.getLsbD stop then
    completeIf a.cell .disabled (s.unstated a.cell)
      (journal (s.engineEntry .reversed a.origin stop refusedMark) s)
  else
    let one := setBit (0 : StopImage) stop true
    let c : ChangeSet := { mask := one, bits := if bit then one else 0 }
    completeIf a.cell .ok (s.movesOf c)
      (journal (s.engineEntry .reversed a.origin stop bit.toNat) (applyChangeSet c s))

/-- UNDO (R58). -/
def undoAction (a : Action) (s : State) : State :=
  match s.ce.undo with
  | [] => 
    completeIf a.cell .empty (s.unstated a.cell) (journal (s.engineEntry .undo a.origin 0 refusedMark) s)
  | snapshot :: rest =>
    let c : ChangeSet := { mask := firstStops s.desc.header.stops &&& ~~~s.heldStops, bits := snapshot }
    completeIf a.cell .ok (s.movesOf c)
      (journal (s.engineEntry .undo a.origin (s.movesOf c) rest.length) (applyChangeSet c (setUndo rest s)))

/-- The scope a TUTTI_CAPTURE writes (R55). -/
def tuttiScope : Byte := 0xFF

/-- Whether a TUTTI turns the flag off at one event; otherwise it re-reads the tutti slot (R54). -/
def TuttiState.turnsOff (flag : Bool) : TuttiState → Bool
  | .off => true
  | .on => false
  | .toggle => flag

def tuttiAction (a : Action) (state : TuttiState) (s : State) : State :=
  if state.turnsOff s.ru.tutti then
    completeIf a.cell .ok 0 (journal (s.engineEntry .tutti a.origin 0 0) (setTutti false s))
  else startRead .ce tuttiSlotAddr 56 (setJob (some (.tuttiRead a)) s)

/-- TUTTI_CAPTURE (R55). -/
def tuttiCaptureAction (a : Action) (s : State) : State :=
  if s.refusesCapture a.origin then
    completeIf a.cell .disabled (s.unstated a.cell)
      (journal (s.engineEntry .captureRefused a.origin RequestResult.disabled.code 0) s)
  else if s.desc.header.tuttiLock then
    completeIf a.cell .locked (s.unstated a.cell)
      (journal (s.engineEntry .captureRefused a.origin RequestResult.locked.code 0) s)
  else
    enqueueAccesses .ce (slotAccesses tuttiSlotAddr tuttiScope s.clock s.captureImage)
      (setJob (some (.tuttiWrite a s.captureImage (checkWord tuttiScope s.captureImage))) s)

/-- What taking an action does, by its kind (R45). A REVERSE sets the opposite of the stop's RI bit as the action is
taken (R56). -/
def performAction (a : Action) (s : State) : State :=
  match a.kind with
  | .recall level piston => recallAction a level piston s
  | .capture level piston => captureAction a level piston s
  | .cancel => cancelAction a s
  | .tutti state => tuttiAction a state s
  | .tuttiCapture => tuttiCaptureAction a s
  | .reverse stop => setStop a stop (!s.ru.ri.getLsbD stop) s
  | .stopSet stop state => setStop a stop state s
  | .undo => undoAction a s

/-! ### Taking the queue (R45) -/

/-- The engine takes the head of the queue, where it may, and, where the action ends at the event that takes it, the
next, at most `n`. Each take is an event, and marks the mirrors whose values it changes (R36). -/
def takeUpTo : Nat → State → State
  | 0, s => s
  | n + 1, s =>
    match s.nextAction with
    | some a => takeUpTo n (markStale s (performAction a (dropHead s)))
    | none => s

/-- The engine takes its queue as far as it can: at an arrival while IDLE, at the end of an action with records waiting,
and at the completion of the tutti read at entry to RUNNING. In RUNNING it therefore never stays IDLE while the queue
holds a record (R45). -/
def takeActions (s : State) : State := takeUpTo s.ce.queue.length s

/-! ### How actions end (R45, R46) -/

/-- An action ends: the engine returns to IDLE, the cell, if any, gets its result, and the next action is taken (R45,
R46). R46 gives a result value on OK alone: with any other result every caller hands over a free value (DESIGN CHOICE,
log entry 36). -/
def endAction (cell : Option Nat) (result : RequestResult) (value : Nat) (s : State) : State :=
  takeActions (completeIf cell result value (setJob none s))

/-- The result of a slot that is not sound (R40, R46). -/
def SlotJudgement.result : SlotJudgement → RequestResult
  | .empty => .empty
  | .corrupt => .corrupt
  | .sound _ _ => .ok

/-- A follow begins after the main recall, or is refused RANGE (R49). -/
def startFollow (a : Action) (level index f moves : Nat) (s : State) : State :=
  let p := pistonNumber index
  let i := divisionalIndex f p
  if p ≥ (s.desc.division f).pistons then
    endAction a.cell .ok moves
      (journal (slotEntry .recallRefused .follow level i RequestResult.range.code 0) s)
  else startRead .ce (slotAddr level i) 56 (setJob (some (.followRead a level f i moves)) s)

/-- The recall's slot has been read (R47). -/
def endRecall (a : Action) (level piston : Nat) (s : State) : State :=
  match judgeSlot (s.readBytes .ce) with
  | .sound scope image =>
    let effective := effectiveScope piston scope
    let c := s.recallSet effective image
    let moves := s.movesOf c
    let s₁ := journal (slotEntry .recalled a.origin level piston moves effective.toNat)
      (applyChangeSet c (pushUndo s))
    match s.followOf piston with
    | some f => startFollow a level piston f moves s₁
    | none => endAction a.cell .ok moves s₁
  | j =>
    endAction a.cell j.result (s.unstated a.cell)
      (journal (slotEntry .recallRefused a.origin level piston j.result.code 0) s)

/-- The follow's slot has been read (R49): no second snapshot, and the main recall stands. -/
def endFollow (a : Action) (level f index moves : Nat) (s : State) : State :=
  match judgeSlot (s.readBytes .ce) with
  | .sound scope image =>
    let effective := scope &&& divisionBit f
    let c := s.recallSet effective image
    endAction a.cell .ok (moves + s.movesOf c)
      (journal (slotEntry .recalled .follow level index (s.movesOf c) effective.toNat) (applyChangeSet c s))
  | j =>
    endAction a.cell .ok moves
      (journal (slotEntry .recallRefused .follow level index j.result.code 0) s)

/-- The lock byte has been read: the capture is refused LOCKED, or copies RI and starts writing with the scope that
stood when it was taken (R51, R52). -/
def endLockRead (a : Action) (level piston : Nat) (scope : Byte) (s : State) : State :=
  if natLE (s.readBytes .ce) ≠ 0 then
    endAction a.cell .locked (s.unstated a.cell)
      (journal (slotEntry .captureRefused a.origin level piston RequestResult.locked.code 0) s)
  else
    enqueueAccesses .ce (slotAccesses (slotAddr level piston) scope s.clock s.captureImage)
      (setJob (some (.slotWrite a level piston scope (checkWord scope s.captureImage))) s)

/-- The tutti slot has been re-read (R54). -/
def endTuttiRead (a : Action) (s : State) : State :=
  match judgeSlot (s.readBytes .ce) with
  | .sound _ image =>
    endAction a.cell .ok 1
      (journal (s.engineEntry .tutti a.origin 1 0)
        (setTutti true (setTuttiImage (image &&& firstStops s.desc.header.stops) s)))
  | j =>
    endAction a.cell j.result (s.unstated a.cell)
      (journal (s.engineEntry .recallRefused a.origin j.result.code 0) (setTutti false s))

/-- The tutti slot has been written (R55). -/
def endTuttiWrite (a : Action) (image : StopImage) (check : BitVec 16) (s : State) : State :=
  endAction a.cell .ok check.toNat
    (journal (s.engineEntry .captured a.origin tuttiScope.toNat check.toNat) (setTuttiImage image s))

/-- The tutti slot has been read at entry to RUNNING (R20), and the engine takes its queue (R45). -/
def endRunningTuttiRead (s : State) : State :=
  takeActions (setJob none (setTuttiImage
    (match judgeSlot (s.readBytes .ce) with
      | .sound _ image => image &&& firstStops s.desc.header.stops
      | _ => 0) s))

/-! ### Arrivals (R44, R45) -/

/-- A record joins the tail of the queue, or is dropped where 8 wait (R44). -/
def joinActions (a : Action) (s : State) : State :=
  if s.ce.queue.length ≥ Config.actionQueueSize then overrun a s
  else setActionQueue (s.ce.queue ++ [a]) s

/-- A record is offered to the tail of the action queue (R44), and an IDLE engine takes the head at the arrival (R45).
-/
def offerAction (a : Action) (s : State) : State := takeActions (joinActions a s)

/-! ### Commands: an action is taken from the head of the queue

Each has the engine take the head, and go on with the queue where the action ends at the event that takes it (R45). Where
the head is another action, or the engine is not IDLE, or the part is not RUNNING, the event does not take place (log
entry 3). Since an IDLE engine takes the head at the event that lets it (`takeActions`), no state that a run reaches has an
action left for these commands to take (log entry 10). -/

/-- RECALL (R45, R47): a head of this kind is taken, as `recallAction` says. -/
def execRecall (s : State) : Host.Outcome State Fault Refusal :=
  match s.nextAction with
  | some ⟨.recall _ _, _, _⟩ => finish s (takeActions s)
  | _ => finish s s

/-- CAPTURE (R45, R51, R52): a head of this kind is taken, as `captureAction` says. -/
def execCapture (s : State) : Host.Outcome State Fault Refusal :=
  match s.nextAction with
  | some ⟨.capture _ _, _, _⟩ => finish s (takeActions s)
  | _ => finish s s

/-- CANCEL (R45, R53): a head of this kind is taken, as `cancelAction` says. -/
def execCancel (s : State) : Host.Outcome State Fault Refusal :=
  match s.nextAction with
  | some ⟨.cancel, _, _⟩ => finish s (takeActions s)
  | _ => finish s s

/-- TUTTI (R45, R54): a head of this kind is taken, as `tuttiAction` says. -/
def execTutti (s : State) : Host.Outcome State Fault Refusal :=
  match s.nextAction with
  | some ⟨.tutti _, _, _⟩ => finish s (takeActions s)
  | _ => finish s s

/-- TUTTI_CAPTURE (R45, R55): a head of this kind is taken, as `tuttiCaptureAction` says. -/
def execTuttiCapture (s : State) : Host.Outcome State Fault Refusal :=
  match s.nextAction with
  | some ⟨.tuttiCapture, _, _⟩ => finish s (takeActions s)
  | _ => finish s s

/-- REVERSE (R45, R56): a head of this kind is taken, as `setStop` says. -/
def execReverse (s : State) : Host.Outcome State Fault Refusal :=
  match s.nextAction with
  | some ⟨.reverse _, _, _⟩ => finish s (takeActions s)
  | _ => finish s s

/-- STOP_SET (R45, R56): a head of this kind is taken, as `setStop` says. -/
def execStopSet (s : State) : Host.Outcome State Fault Refusal :=
  match s.nextAction with
  | some ⟨.stopSet _ _, _, _⟩ => finish s (takeActions s)
  | _ => finish s s

/-- UNDO (R45, R58): a head of this kind is taken, as `undoAction` says. -/
def execUndo (s : State) : Host.Outcome State Fault Refusal :=
  match s.nextAction with
  | some ⟨.undo, _, _⟩ => finish s (takeActions s)
  | _ => finish s s

/-! ### Commands: a slot access completes -/

/-- RECALL_SLOT_READ_COMPLETION (R47). -/
def execRecallSlotReadCompletion (s : State) : Host.Outcome State Fault Refusal :=
  match s.ce.job with
  | some (.recallRead a level piston) => finish s (endRecall a level piston (finishRead .ce s))
  | _ => finish s s

/-- FOLLOW_SLOT_READ_COMPLETION (R49). -/
def execFollowSlotReadCompletion (s : State) : Host.Outcome State Fault Refusal :=
  match s.ce.job with
  | some (.followRead a level f index moves) => finish s (endFollow a level f index moves (finishRead .ce s))
  | _ => finish s s

/-- LOCK_BYTE_READ_COMPLETION (R52). -/
def execLockByteReadCompletion (s : State) : Host.Outcome State Fault Refusal :=
  match s.ce.job with
  | some (.lockRead a level piston scope) => finish s (endLockRead a level piston scope (finishRead .ce s))
  | _ => finish s s

/-- SLOT_WRITE_COMPLETION (R41, R52): the engine returns to IDLE and journals CAPTURED. -/
def execSlotWriteCompletion (s : State) : Host.Outcome State Fault Refusal :=
  match s.ce.job with
  | some (.slotWrite a level piston scope check) =>
    finish s (endAction a.cell .ok check.toNat
      (journal (slotEntry .captured a.origin level piston scope.toNat check.toNat) (finishWrite .ce .slot s)))
  | _ => finish s s

/-- TUTTI_SLOT_READ_COMPLETION (R54). -/
def execTuttiSlotReadCompletion (s : State) : Host.Outcome State Fault Refusal :=
  match s.ce.job with
  | some (.tuttiRead a) => finish s (endTuttiRead a (finishRead .ce s))
  | _ => finish s s

/-- TUTTI_CAPTURE_WRITE_COMPLETION (R55). -/
def execTuttiCaptureWriteCompletion (s : State) : Host.Outcome State Fault Refusal :=
  match s.ce.job with
  | some (.tuttiWrite a image check) => finish s (endTuttiWrite a image check (finishWrite .ce .slot s))
  | _ => finish s s

/-- RUNNING_TUTTI_READ_COMPLETION (R20). -/
def execRunningTuttiReadCompletion (s : State) : Host.Outcome State Fault Refusal :=
  match s.ce.job with
  | some .runningTuttiRead => finish s (endRunningTuttiRead (finishRead .ce s))
  | _ => finish s s

/-- LOCK_LEVEL_WRITE_COMPLETION (R43): the oldest LOCK_LEVEL write in progress completes, and its request is
completed OK with the value written. -/
def execLockLevelWriteCompletion (s : State) : Host.Outcome State Fault Refusal :=
  match s.ce.locks with
  | [] => finish s s
  | (cell, value) :: rest =>
    let s₁ := serveUntil .ce
      (fun q => decide ((q.queue.filter (Access.isFor .lock)).length ≤ rest.length)) s.port.waiting s
    finish s (complete cell .ok value { s₁ with ce := { s₁.ce with locks := rest } })

end Sys2Proof.Machine
end

