-- ==== Sys2Proof/Machine/Sequencer.lean ====
section
/-! DEFINITION. The Sequencer (04_the_sequencer.md). -/

namespace Sys2Proof.Machine

/-! ### The step-request list (R62) -/

/-- A SEQUENCE entry with the refused mark (R65). -/
def State.refusedStep (s : State) (origin : Origin) : JournalEntry :=
  { kind := .sequence, origin := origin, level := s.ce.level
    argA := positionCode s.sq.position, argB := refusedMark }

/-- A NEXT or PREV, which is journaled when it is dropped (R62). -/
def StepKind.isStep : StepKind → Bool
  | .next | .prev => true
  | .set _ => false

/-- The request the Sequencer may take: the head of the list, in IDLE and in RUNNING only (R62). -/
def State.nextStep (s : State) : Option StepRequest :=
  if s.part = .running ∧ s.sq.job = none then s.sq.list.head? else none

/-- The head is taken, and the read of the length word starts (R62, R63). -/
def fetchLength (r : StepRequest) (s : State) : State :=
  let s₁ := setStepList s.sq.list.tail s
  startRead .sq sequenceBase 4 { s₁ with sq := { s₁.sq with job := some (.lengthRead r) } }

/-- A SEQ_SET to NONE is taken: the position is NONE, and the request ends, at that event (R62, R67). -/
def clearPosition (cell : Option Nat) (s : State) : State :=
  completeIf cell .ok 0xFFFF (setPosition none (setStepList s.sq.list.tail s))

/-- What taking the head of the list does, by its kind (R62). -/
def performStep (r : StepRequest) (s : State) : State :=
  if r.kind = .set 0xFFFF then clearPosition r.cell s else fetchLength r s

/-- The Sequencer takes the head of its list, where it may, and, where the request ends at the event that takes it, the
next, at most `n`. -/
def takeStepsUpTo : Nat → State → State
  | 0, s => s
  | n + 1, s =>
    match s.nextStep with
    | some r => takeStepsUpTo n (performStep r s)
    | none => s

/-- The Sequencer takes its list as far as it can: at an arrival while IDLE, at the end of a request with others
waiting, and at entry to RUNNING (R62). -/
def takeSteps (s : State) : State := takeStepsUpTo s.sq.list.length s

/-- The Sequencer returns to IDLE, and only then takes the next request (R62). -/
def leaveFetching (s : State) : State := takeSteps { s with sq := { s.sq with job := none } }

/-- A request ends: the cell, if any, gets its result, and the Sequencer returns to IDLE. -/
def endStep (cell : Option Nat) (result : RequestResult) (value : Nat) (s : State) : State :=
  leaveFetching (completeIf cell result value s)

/-- A request joins the tail of the list, or is dropped where 4 wait; R62 gives FULL no result value, so it is
free (DESIGN CHOICE, log entry 36). -/
def joinSteps (r : StepRequest) (s : State) : State :=
  if s.sq.list.length ≥ Config.stepListSize then
    completeIf r.cell .full (s.unstated r.cell) (if r.kind.isStep then journal (s.refusedStep r.origin) s else s)
  else setStepList (s.sq.list ++ [r]) s

/-- A request arrives: it joins the list, and an IDLE Sequencer takes the head at the arrival (R62). -/
def offerStep (r : StepRequest) (s : State) : State := takeSteps (joinSteps r s)

/-! ### Targets (R60, R63, R64) -/

/-- The effective length of the list (R60). -/
def effectiveLength (word : Nat) : Nat := min word 1024

/-- The target of a NEXT (R63). -/
def nextTarget (e : Nat) (position : Option Nat) : Option Nat :=
  if e = 0 then none
  else match position with
    | none => some 0
    | some p => if p ≥ e then some (e - 1) else if p < e - 1 then some (p + 1) else some (e - 1)

/-- The target of a PREV (R64). -/
def prevTarget (e : Nat) (position : Option Nat) : Option Nat :=
  if e = 0 then none
  else match position with
    | none => some 0
    | some p => if p = 0 then some 0 else if p ≤ e then some (p - 1) else some (e - 1)

/-- The target step is read, or the NEXT or PREV is refused because the list is empty (R63, R64). -/
def fetchTarget (r : StepRequest) (target : Option Nat) (s : State) : State :=
  match target with
  | none => endStep r.cell .empty 0 (journal (s.refusedStep r.origin) s)
  | some t => startRead .sq (stepAddr t) 4 { s with sq := { s.sq with job := some (.stepRead r t) } }

/-- A SEQ_SET to a step number: below E it is set, otherwise RANGE, to which R67 gives no result value: it is free
(DESIGN CHOICE, log entry 36). -/
def settlePosition (r : StepRequest) (p e : Nat) (s : State) : State :=
  if p < e then endStep r.cell .ok p (setPosition (some p) s)
  else endStep r.cell .range (s.unstated r.cell) s

/-- The length word has been read (R63, R64, R67). -/
def takeLength (r : StepRequest) (s : State) : State :=
  let e := effectiveLength (natLE (s.readBytes .sq))
  match r.kind with
  | .next => fetchTarget r (nextTarget e s.sq.position) s
  | .prev => fetchTarget r (prevTarget e s.sq.position) s
  | .set p => settlePosition r p e s

/-! ### Taking a step (R65, R66) -/

/-- The SEQUENCE entry of a step taken (R65). -/
def stepEntry (r : StepRequest) (target level piston note : Nat) : JournalEntry :=
  { kind := .sequence, origin := r.origin, level := level, piston := piston, argA := target, argB := note }

/-- A bad step moves the position and queues nothing (R66). -/
def badStep (r : StepRequest) (target level piston note : Nat) (s : State) : State :=
  endStep r.cell .range target
    (journal (slotEntry .recallRefused .sequencer level piston RequestResult.range.code 0)
      (journal (stepEntry r target level piston note) (setPosition (some target) s)))

/-- The step's recall has entered the queue: the position and the current level move (R65, R42), and an IDLE engine
takes the recall at its arrival (R45). -/
def goodStep (r : StepRequest) (target level piston note : Nat) (s : State) : State :=
  let s₁ := journal (stepEntry r target level piston note) (setPosition (some target) s)
  leaveFetching (takeActions (if level = s.ce.level then s₁ else changeLevel level r.origin s₁))

/-- The target step has been read (R65, R66): level, piston and note. -/
def takeStep (r : StepRequest) (target : Nat) (s : State) : State :=
  let bytes := s.readBytes .sq
  let level := byteAt bytes 0
  let piston := byteAt bytes 1
  let note := natLE ((bytes.drop 2).take 2)
  let offered := joinActions ⟨.recall level piston, .sequencer, r.cell⟩ s
  if level ≥ s.desc.header.levels ∨ piston ≥ 128 then badStep r target level piston note s
  else if s.ce.queue.length ≥ Config.actionQueueSize then leaveFetching offered
  else goodStep r target level piston note offered

/-! ### Commands

NEXT, PREV and SEQ_SET have an IDLE Sequencer take the head of its list in RUNNING; otherwise the event does not take place
(log entry 3). Since it takes the head at the event that lets it (`takeSteps`), no state that a run reaches has a request
left for these commands to take (log entry 10). -/

/-- NEXT (R62, R63): a NEXT is taken, and the read of the length word starts. -/
def execNext (s : State) : Host.Outcome State Fault Refusal :=
  match s.nextStep with
  | some ⟨.next, _, _⟩ => finish s (takeSteps s)
  | _ => finish s s

/-- PREV (R62, R64): a PREV is taken, and the read of the length word starts. -/
def execPrev (s : State) : Host.Outcome State Fault Refusal :=
  match s.nextStep with
  | some ⟨.prev, _, _⟩ => finish s (takeSteps s)
  | _ => finish s s

/-- SEQ_SET (R62, R67): a SEQ_SET is taken: NONE is set at the event, a step number needs the length word. -/
def execSeqSet (s : State) : Host.Outcome State Fault Refusal :=
  match s.nextStep with
  | some ⟨.set _, _, _⟩ => finish s (takeSteps s)
  | _ => finish s s

/-- LENGTH_WORD_READ_COMPLETION (R63, R64, R67). -/
def execLengthWordReadCompletion (s : State) : Host.Outcome State Fault Refusal :=
  match s.sq.job with
  | some (.lengthRead r) => finish s (takeLength r (finishRead .sq s))
  | _ => finish s s

/-- STEP_READ_COMPLETION (R65, R66). -/
def execStepReadCompletion (s : State) : Host.Outcome State Fault Refusal :=
  match s.sq.job with
  | some (.stepRead r target) => finish s (takeStep r target (finishRead .sq s))
  | _ => finish s s

end Sys2Proof.Machine
end

