-- ==== Sys2Proof/Machine/Contacts.lean ====
section
/-! DEFINITION. The Contact Scanner (06_contact_sensing_and_piston_decoding.md). -/

namespace Sys2Proof.Machine

/-! ### Watched contacts (R85) -/

/-- The role of a watched contact, with its debounce depth (R85). -/
inductive ContactRole where
  | sense (stop depth : Nat)
  | tablet (stop depth : Nat)
  | piston (record : PistonRec)
  deriving DecidableEq, Repr

/-- The role that a stop record, the first being that of stop `n`, gives a contact (R85). -/
def stopRole (address contact : Nat) : Nat → List StopRec → Option ContactRole
  | _, [] => none
  | n, r :: rs =>
    if r.board = address ∧ r.contact = contact then
      some (match r.kind with
        | .moved => .sense n r.depth
        | .lit => .tablet n r.depth)
    else stopRole address contact (n + 1) rs

/-- The role of a contact; R11 gives each contact at most one record (R85). -/
def Desc.role (d : Desc) (i : Fin 16) (contact : Nat) : Option ContactRole :=
  match stopRole (boardAddress i) contact 0 d.stops with
  | some r => some r
  | none =>
    (d.pistons.find? (fun p => p.board == boardAddress i && p.contact == contact)).map ContactRole.piston

def ContactRole.depth : ContactRole → Nat
  | .sense _ d | .tablet _ d => d
  | .piston p => p.depth

/-- A press contact: a piston contact or the press contact of a LIT stop (R85). -/
def ContactRole.isPress : ContactRole → Bool
  | .sense _ _ => false
  | .tablet _ _ | .piston _ => true

/-! ### Debounce and arming (R87, R90) -/

/-- What a sample does to a contact: its new state, and whether a change was accepted and was a press. -/
structure Debounced where
  contact : Contact
  accepted : Bool := false
  press : Bool := false
  deriving DecidableEq, Repr

/-- A watched contact takes a sampled level (R87); an accepted close of an armed press contact is a press, and an
accepted open arms it (R90). -/
def debounce (role : ContactRole) (c : Contact) (closed : Bool) : Debounced :=
  if closed = c.closed then { contact := { c with run := 0 } }
  else if c.run + 1 < role.depth then { contact := { c with run := c.run + 1 } }
  else
    { contact := ⟨closed, 0, role.isPress && !closed⟩
      accepted := true
      press := role.isPress && closed && c.armed }

/-- What a contact of board `i` becomes at a sample; an unwatched contact is not read (R85). -/
def sampleContact (d : Desc) (i : Fin 16) (levels : BitVec 64) (n : Nat) (c : Contact) : Debounced :=
  match d.role i n with
  | none => { contact := c }
  | some role => debounce role c (levels.getLsbD n)

/-- The contacts of a bank from index `n` upwards, each with its outcome. -/
def sampleFrom (d : Desc) (i : Fin 16) (levels : BitVec 64) : Nat → List Contact → List Debounced
  | _, [] => []
  | n, c :: cs => sampleContact d i levels n c :: sampleFrom d i levels (n + 1) cs

theorem sampleFrom_length (d : Desc) (i : Fin 16) (levels : BitVec 64) (n : Nat) (cs : List Contact) :
    (sampleFrom d i levels n cs).length = cs.length := by
  induction cs generalizing n with
  | nil => rfl
  | cons c cs ih => simp [sampleFrom, ih]

/-- The outcomes of a sample of board `i`, contact by contact. -/
def sampleBank (d : Desc) (i : Fin 16) (levels : BitVec 64) (b : ContactBank) : Vector Debounced 64 :=
  ⟨⟨sampleFrom d i levels 0 b.toList⟩, by simp [sampleFrom_length]⟩

/-! ### Decoding (R92 to R95) -/

/-- The board takes part: PRESENT or SUSPECT. -/
def BoardState.takesPart : BoardState → Bool
  | .present | .suspect => true
  | .unknown | .absent | .mismatch => false

/-- The accepted level of a contact (R85). -/
def State.isClosed (s : State) (i : Fin 16) (contact : Nat) : Bool := (s.cs.contacts[i].toList.getD contact {}).closed

/-- SET is held: some SET contact is accepted closed and its board is PRESENT or SUSPECT (R92). -/
def State.setHeld (s : State) : Bool :=
  s.desc.pistons.any (fun p =>
    p.function == .set && s.isClosed (boardPlace p.board) p.contact &&
      (s.lc.boards[boardPlace p.board]).state.takesPart)

/-- The press of a piston contact (R93). -/
def pressPiston (held : Bool) (p : PistonRec) (s : State) : State :=
  let act (k : ActionKind) : State := offerAction ⟨k, p.origin, none⟩ s
  let slot (index : Nat) : State :=
    act (if held then .capture s.ce.level index else .recall s.ce.level index)
  match p.function with
  | .general n => slot n
  | .divisional d n => slot (divisionalIndex d n)
  | .cancel => act .cancel
  | .set => s
  | .next => offerStep ⟨.next, p.origin, none⟩ s
  | .prev => offerStep ⟨.prev, p.origin, none⟩ s
  | .levelUp => changeLevel (levelUp s.desc.header.levels s.ce.level) p.origin s
  | .levelDown => changeLevel (levelDown s.desc.header.levels s.ce.level) p.origin s
  | .tutti => act (if held then .tuttiCapture else .tutti .toggle)
  | .undo => act .undo
  | .reversible stop => act (.reverse stop)

/-- The press of a press contact by its role; a tablet is a REVERSE with origin THUMB, SET or no SET (R95). -/
def pressContact (held : Bool) (role : ContactRole) (s : State) : State :=
  match role with
  | .sense _ _ => s
  | .tablet stop _ => offerAction ⟨.reverse stop, .thumb, none⟩ s
  | .piston p => pressPiston held p s

/-! ### A sample (R86) -/

/-- Step 3 of R86: the hand moves of the contacts from index `n` upwards. -/
def handMoves (d : Desc) (i : Fin 16) : Nat → List Debounced → State → State
  | _, [], s => s
  | n, o :: os, s =>
    handMoves d i (n + 1) os
      (match d.role i n with
        | some (.sense stop _) => if o.accepted then handMove stop o.contact.closed s else s
        | _ => s)

/-- Step 4 of R86: the presses of the contacts from index `n` upwards, in ascending index (R94). -/
def presses (d : Desc) (i : Fin 16) (held : Bool) : Nat → List Debounced → State → State
  | _, [], s => s
  | n, o :: os, s =>
    presses d i held (n + 1) os
      (if o.press then
        match d.role i n with
        | some role => pressContact held role s
        | none => s
      else s)

/-- A sample of a board's contacts, one event: debounce, SET, hand moves, presses (R86). -/
def contactSample (i : Fin 16) (levels : BitVec 64) (s : State) : State :=
  let out := sampleBank s.desc i levels s.cs.contacts[i]
  let s₁ := { s with cs := { s.cs with contacts := s.cs.contacts.set i (mapVector Debounced.contact out) i.isLt } }
  presses s.desc i s₁.setHeld 0 out.toList (handMoves s.desc i 0 out.toList s₁)

/-! ### Adoption (R88, R89) -/

/-- A contact as adopted: the accepted level as read, the run counter 0, a press contact armed if read open. -/
def adoptContact (role : Option ContactRole) (closed : Bool) (c : Contact) : Contact :=
  match role with
  | none => c
  | some r => ⟨closed, 0, r.isPress && !closed⟩

/-- The contacts of a bank from index `n` upwards as adopted. -/
def adoptFrom (d : Desc) (i : Fin 16) (levels : BitVec 64) : Nat → List Contact → List Contact
  | _, [] => []
  | n, c :: cs => adoptContact (d.role i n) (levels.getLsbD n) c :: adoptFrom d i levels (n + 1) cs

theorem adoptFrom_length (d : Desc) (i : Fin 16) (levels : BitVec 64) (n : Nat) (cs : List Contact) :
    (adoptFrom d i levels n cs).length = cs.length := by
  induction cs generalizing n with
  | nil => rfl
  | cons c cs ih => simp [adoptFrom, ih]

/-- The contacts of board `i` as adopted. -/
def adoptBank (d : Desc) (i : Fin 16) (levels : BitVec 64) (b : ContactBank) : ContactBank :=
  ⟨⟨adoptFrom d i levels 0 b.toList⟩, by simp [adoptFrom_length]⟩

/-- The CI bits of the MOVED stops of a board as its contacts read, closed as 1; stop `n` first (R88). -/
def sensedImage (address : Nat) (levels : BitVec 64) : Nat → List StopRec → StopImage
  | _, [] => 0
  | n, r :: rs =>
    let m := sensedImage address levels (n + 1) rs
    if r.kind = .moved ∧ r.board = address ∧ levels.getLsbD r.contact then setBit m n true else m

/-- The Contact Scanner takes a board's contacts as read, at its first PRESENT after a load or at its return
(R88, R89). -/
def adoptContacts (i : Fin 16) (levels : BitVec 64) (s : State) : State :=
  { s with cs := { s.cs with
      contacts := s.cs.contacts.set i (adoptBank s.desc i levels s.cs.contacts[i]) i.isLt
      ci := mergeImage s.cs.ci (s.desc.stopsOnBoard i &&& s.desc.movedStops)
        (sensedImage (boardAddress i) levels 0 s.desc.stops) } }

end Sys2Proof.Machine
end

