-- ==== Sys2Proof/Machine/Sweep.lean ====
section
/-! DEFINITION. The Request Scanner's sweep and its completion writes (R137, R138, R140). -/

namespace Sys2Proof.Machine

/-- The sweep reads the state byte of a cell (R137). -/
def sweepTo (cell : Nat) (s : State) : State :=
  startRead .rs (cellAddr cell) 1 { s with rs := { s.rs with sweep := .stateRead cell } }

/-- The sweep moves on from a cell; after cell 31 it ends, or starts anew where a trigger is pending (R137). -/
def sweepOn (cell : Nat) (s : State) : State :=
  if cell + 1 < Config.cellCount then sweepTo (cell + 1) s
  else if s.rs.scanPending then sweepTo 0 { s with rs := { s.rs with scanPending := false } }
  else { s with rs := { s.rs with sweep := .idle } }

/-- A sweep trigger (R137): it starts a sweep, is remembered while one is in progress, and is discarded outside
RUNNING. -/
def triggerSweep (s : State) : State :=
  if s.part = .running then
    if s.rs.sweep = .idle then sweepTo 0 s else { s with rs := { s.rs with scanPending := true } }
  else s

/-- The sweep waits for the completion of this cell's refusal (R138). -/
def Sweep.awaits (cell : Nat) : Sweep → Bool
  | .refusing c => c == cell
  | _ => false

/-- The next completion of the list is written (R140). -/
def startCompletion (s : State) : State :=
  match s.rs.completions with
  | [] => s
  | c :: _ => enqueueAccesses .rs (completionAccesses c) s

/-- The DONE of the oldest completion has been written (R140): its flag is cleared, REQ is raised, a sweep that
waited for it moves on (R138), and a failed load whose report is written enters DESC_ERROR (R13). The writes of the next
result wait for the port before the read of the sweep that moves on (DESIGN CHOICE, log entry 16). -/
def finishCompletion (s : State) : State :=
  match s.rs.completions with
  | [] => s
  | c :: rest =>
    let s₁ := raise .req { s with rs := { s.rs with
      completions := rest, outstanding := setBit s.rs.outstanding c.cell false } }
    let s₂ := startCompletion s₁
    let s₃ := if s₂.rs.sweep.awaits c.cell then sweepOn c.cell s₂ else s₂
    if s₃.dl.phase = .awaitingCell c.cell then
      changePart .descError { s₃ with dl := { s₃.dl with phase := .idle } }
    else s₃

/-- An access that is neither a read nor an ACCEPTED write: what remains of the Request Scanner's accesses when
its sweep ends early. -/
def Access.outlivesSweep (a : Access) : Bool := !a.isRead && !a.isFor .accept

/-- A sweep ends early (R137): a cell whose ACCEPTED has not been written stays POSTED, and the scan-pending flag
is cleared. A request whose ACCEPTED has been written and which is not yet handed on is not handed on: its cell keeps
its outstanding flag, and the next entry to LOADING completes it ABANDONED (DEDUCED, log entry 43). -/
def endSweep (s : State) : State :=
  let outstanding := match s.rs.sweep with
    | .accepting c _ =>
      if (s.port.get .rs).writeDone .accept then s.rs.outstanding else setBit s.rs.outstanding c false
    | _ => s.rs.outstanding
  keepAccesses .rs Access.outlivesSweep
    { s with rs := { s.rs with sweep := .idle, scanPending := false, outstanding := outstanding } }

/-- A cell has a result that is not yet written. -/
def State.completionWaits (s : State) (cell : Nat) : Bool := s.rs.completions.any (fun c => c.cell == cell)

/-- A cell that reads POSTED is taken unless the part still holds it: its outstanding flag is set, or a result for
it waits to be written (R141; log entry 8). -/
def State.holdsCell (s : State) (cell : Nat) : Bool := s.rs.outstanding.getLsbD cell || s.completionWaits cell

/-- The state byte has been read: a POSTED cell's kind, arg0 and arg1 are read, another is passed over (R137,
R138). They lie at +1, +3, +4 and +5 (R162). Whether the part still holds the cell is judged at this event and not when
the port made the read: where the completion of the first request comes between the two, a second request that the byte
shows POSTED is taken (DESIGN CHOICE, log entry 44). -/
def takeStateByte (cell : Nat) (s : State) : State :=
  if (s.readBytes .rs).getD 0 0 = cellPosted ∧ s.holdsCell cell = false then
    enqueueAccesses .rs [.read (cellAddr cell + 3), .read (cellAddr cell + 4), .read (cellAddr cell + 5)]
      (startRead .rs (cellAddr cell + 1) 1 { s with rs := { s.rs with sweep := .cellRead cell } })
  else sweepOn cell s

/-- The request is refused: its result is handed over, and the sweep waits until it is DONE (R138). -/
def refuseCell (cell : Nat) (result : RequestResult) (s : State) : State :=
  complete cell result 0 { s with rs := { s.rs with sweep := .refusing cell } }

/-- The request is taken: ACCEPTED is written and the outstanding flag set (R138). -/
def acceptCell (cell : Nat) (r : Request) (s : State) : State :=
  startWrite .rs .accept (cellAddr cell) [cellAccepted]
    { s with rs := { s.rs with
        sweep := .accepting cell r, outstanding := setBit s.rs.outstanding cell true } }

/-- The kind and the arguments have been read (R138, R139); a RELOAD is taken by the RELOAD command (R144). -/
def judgeCell (cell : Nat) (s : State) : State :=
  let bytes := s.readBytes .rs
  match RequestKind.ofCode (byteAt bytes 0) with
  | none => refuseCell cell .unknown s
  | some kind =>
    let r : Request := ⟨kind, byteAt bytes 1, natLE ((bytes.drop 2).take 2)⟩
    if refusedAtAcceptance s.desc.header r then refuseCell cell .range s
    else if kind = .reload then { s with rs := { s.rs with sweep := .reload cell } }
    else acceptCell cell r s

/-! ### Commands -/

/-- ATTENTION (R137): a write of any value triggers a sweep. While RESET# is low the port ignores it (R153). -/
def execAttention (_data : BitVec 16) (s : State) : Host.Outcome State Fault Refusal :=
  if s.inReset then finish s s else finish s (triggerSweep s)

/-- SWEEP_STATE_READ_COMPLETION (R137). -/
def execSweepStateReadCompletion (s : State) : Host.Outcome State Fault Refusal :=
  match s.rs.sweep with
  | .stateRead cell => finish s (takeStateByte cell (finishRead .rs s))
  | _ => finish s s

/-- CELL_READ_COMPLETION (R138, R139). -/
def execCellReadCompletion (s : State) : Host.Outcome State Fault Refusal :=
  match s.rs.sweep with
  | .cellRead cell => finish s (judgeCell cell (finishRead .rs s))
  | _ => finish s s

/-- CELL_COMPLETION_WRITE (R140): the oldest completion's DONE write finishes. -/
def execCellCompletionWrite (s : State) : Host.Outcome State Fault Refusal :=
  if s.rs.completions.isEmpty then finish s s
  else finish s (finishCompletion (finishWrite .rs .complete s))

end Sys2Proof.Machine
end

