-- ==== Sys2Proof/Machine/Link.lean ====
section
/-! DEFINITION. The Link Controller (08_the_jamb_link.md), the entry to RUNNING that the end of a census round can
bring (R156), and the boards' side of the link (R121). -/

namespace Sys2Proof.Machine

/-- The board places in ascending address. -/
def allBoards : List (Fin 16) := [0, 1, 2, 3, 4, 5, 6, 7, 8, 9, 10, 11, 12, 13, 14, 15]

/-- What the Link Controller holds for a board changes. -/
def updateBoard (i : Fin 16) (f : BoardLink → BoardLink) (s : State) : State :=
  { s with lc := { s.lc with boards := s.lc.boards.set i (f s.lc.boards[i]) i.isLt } }

/-! ### Frames (R24, R25, R120, R130, R164) -/

/-- The lamp bits of a board from RI, stop `n` first: lamps the record does not count are 0 (R25, R130). -/
def lampBits (address lamps : Nat) (ri : StopImage) : Nat → List StopRec → BitVec 32
  | _, [] => 0
  | n, r :: rs =>
    let m := lampBits address lamps ri (n + 1) rs
    match r.lamp with
    | some l => if r.board = address ∧ l < lamps ∧ ri.getLsbD n then setBit m l true else m
    | none => m

/-- The chest bits of a board from SI, stop `n` first: bits at or above the record's count are 0 (R24, R130). -/
def chestBits (address count : Nat) (si : StopImage) : Nat → List StopRec → BitVec 128
  | _, [] => 0
  | n, r :: rs =>
    let m := chestBits address count si (n + 1) rs
    match r.chest with
    | some (c, b) => if c = address ∧ b < count ∧ si.getLsbD n then setBit m b true else m
    | none => m

/-- The three bytes of a command place (R164). -/
def CoilCommand.bytes (c : CoilCommand) : List Byte :=
  [BitVec.ofNat 8 c.coil, BitVec.ofNat 8 c.on.toNat, BitVec.ofNat 8 c.pulse]

/-- The eight command places; those beyond the count are 0 (R164). -/
def commandPlaces (commands : List CoilCommand) : List Byte :=
  ((commands.map CoilCommand.bytes).flatten ++ List.replicate 24 0).take 24

/-- The bytes of a frame before its check (R164). -/
def LinkFrame.body (i : Fin 16) : LinkFrame → List Byte
  | .pollJamb toggle commands lamps =>
    [BitVec.ofNat 8 (boardAddress i), 0x01, BitVec.ofNat 8 toggle.toNat, BitVec.ofNat 8 commands.length] ++
      commandPlaces commands ++ bytesLE 4 lamps.toNat
  | .pollChest toggle bits =>
    [BitVec.ofNat 8 (boardAddress i), 0x03, BitVec.ofNat 8 toggle.toNat, 0] ++ bytesLE 16 bits.toNat
  | .census => [BitVec.ofNat 8 (boardAddress i), 0x02, 0]

/-- The bytes of a frame on the line: its check last, high byte first (R120, R164). -/
def LinkFrame.bytes (i : Fin 16) (f : LinkFrame) : List Byte :=
  f.body i ++ bytesBE 2 (frameCheck (f.body i)).toNat

/-- The open frame a POLL request carries: the one still open, unchanged, or a new one with the toggle T and every
command of the outgoing list (R127). -/
def BoardLink.frameToSend (b : BoardLink) : OpenFrame :=
  match b.openFrame with
  | some o => o
  | none => ⟨b.toggle, b.outgoing⟩

/-- The POLL request to a board, its lamp or chest bits formed afresh (R127, R130). -/
def State.pollFrame (s : State) (i : Fin 16) : LinkFrame :=
  let r := s.desc.board i
  let o := s.lc.boards[i].frameToSend
  if r.kind = .chest then .pollChest o.toggle (chestBits (boardAddress i) r.chestBits s.ru.si 0 s.desc.stops)
  else .pollJamb o.toggle o.commands (lampBits (boardAddress i) r.lamps s.ru.ri 0 s.desc.stops)

/-! ### Exchanges and rounds (R119, R123, R124, R125) -/

/-- The request a described board's state calls for in a round: POLL, CENSUS or none (R123, R124). -/
inductive RoundRequest where
  | none | poll | census
  deriving DecidableEq, Repr

def State.roundRequest (s : State) (i : Fin 16) : RoundRequest :=
  if (s.desc.board i).kind = .none then .none
  else match s.part, s.lc.boards[i].state with
    | .census, .unknown => .census
    | .running, .present | .running, .suspect => .poll
    | .running, .absent | .running, .mismatch | .running, .unknown =>
      if s.lc.round = 0 then .census else .none
    | _, _ => .none

/-- The next board the pass addresses, from a place upwards (R124). -/
def State.nextBoard (s : State) (place : Nat) : Option (Fin 16) :=
  allBoards.find? (fun i => decide (place ≤ i.val) && s.roundRequest i != .none)

/-- The request to a board is formed and its sending begins (R119, R127). -/
def beginExchange (i : Fin 16) (s : State) : State :=
  if s.roundRequest i = .census then { s with lc := { s.lc with exchange := .sending i .census } }
  else
    updateBoard i (fun b => { b with openFrame := some b.frameToSend })
      { s with lc := { s.lc with exchange := .sending i (s.pollFrame i) } }

/-- The CLEAR_COUNTERS requests of the round are completed (R133). -/
def completeClears (s : State) : State :=
  s.lc.clears.foldl (fun t c => complete c.1 .ok c.2 t) { s with lc := { s.lc with clears := [] } }

/-- A round starts (R125): its due time is set, and the first board's request goes out; a round that addresses no
board ends at its start. -/
def openRoundWith (close : State → State) (s : State) : State :=
  let s₁ := { s with lc := { s.lc with inRound := true, due := s.after s.desc.header.roundPeriod } }
  match s₁.nextBoard 0 with
  | some i => beginExchange i s₁
  | none => close s₁

/-- A polling round ends: pending CLEAR_COUNTERS are completed, and the request sweep is triggered (R125, R133, R137).
R125 gives the two no order: the model completes the CLEAR_COUNTERS first, so that their cells' writes wait for the port
before the first read of a sweep that the trigger starts (DESIGN CHOICE, log entry 16). -/
def closePollingRound (s : State) : State :=
  triggerSweep (completeClears { s with lc := { s.lc with inRound := false } })

/-- A polling round starts; the rounds are numbered modulo 16 (R124; log entry 26). -/
def openPollingRound (s : State) : State :=
  openRoundWith closePollingRound { s with lc := { s.lc with round := s.lc.round + 1 } }

/-- The reload cell is completed OK at the entry to RUNNING (R144). -/
def completeReload (result : RequestResult) (s : State) : State :=
  match s.rs.reloadCell with
  | some c => complete c result 0 { s with rs := { s.rs with reloadCell := none } }
  | none => s

/-- The console clock is set to 0 at the first entry to RUNNING after a hard reset, and counts on at later ones
(R156). -/
def zeroClock (s : State) : State :=
  { s with clock := if s.clockZeroed then s.clock else 0, clockZeroed := true }

/-- The STARTED entry, with the load cause recorded at the entry to LOADING (R148, R156). -/
def State.startedEntry (s : State) : JournalEntry :=
  { kind := .started, argA := match s.dl.loadCause with
    | some c => c.code
    | none => LoadCause.hard.code }

/-- The rounds are numbered from 1 at the entry to RUNNING (R124). -/
def restartRounds (s : State) : State := { s with lc := { s.lc with round := 0 } }

/-- The engine reads the tutti slot at the entry to RUNNING (R20). -/
def readRunningTutti (s : State) : State :=
  startRead .ce tuttiSlotAddr 56 (setJob (some .runningTuttiRead) s)

/-- The entry to RUNNING, one event (R156): the clock is zeroed once, STARTED is journaled, STATE is raised, polling
round 1 starts, the engine reads the tutti slot (R20), the Sequencer takes its list (R62), and a held reload cell is
completed (R144). -/
def enterRunning (s : State) : State :=
  completeReload .ok (takeSteps (readRunningTutti (openPollingRound (restartRounds (changePart .running
    (journal s.startedEntry (zeroClock s)))))))

/-- Some described board is UNKNOWN (R123). -/
def State.someUnknown (s : State) : Bool :=
  allBoards.any (fun i => (s.desc.board i).kind != .none && s.lc.boards[i].state == .unknown)

/-- A census round ends; CENSUS ends with the first after which no described board is UNKNOWN (R123). -/
def closeCensusRound (s : State) : State :=
  let s₁ := { s with lc := { s.lc with inRound := false } }
  if s₁.someUnknown then s₁ else enterRunning s₁

/-- A census round starts (R123, R125). -/
def openCensusRound (s : State) : State := openRoundWith closeCensusRound s

/-- The next round of the part state starts. -/
def openRound (s : State) : State :=
  if s.part = .census then openCensusRound s
  else if s.part = .running then openPollingRound s
  else s

/-- The round of the part state ends; one that has overrun its period is followed at once by the next (R125). -/
def closeRound (s : State) : State :=
  let s₁ := if s.part = .census then closeCensusRound s
    else if s.part = .running then closePollingRound s
    else s
  if s₁.lc.inRound = false ∧ ahead s₁.clock s₁.lc.due = 0 then openRound s₁ else s₁

/-- The exchange with a board has ended: the pass goes on to the next board, or the round ends (R124, R125). -/
def passOn (i : Fin 16) (s : State) : State :=
  match s.nextBoard (i.val + 1) with
  | some j => beginExchange j s
  | none => closeRound s

/-! ### Board states (R122, R132) -/

/-- A board's state changes: a BOARD entry is handed over, and the mirrors are marked stale with a record for BRD
(R132, R134). -/
def changeBoard (i : Fin 16) (new : BoardState) (s : State) : State :=
  let old := s.lc.boards[i].state
  let s₁ := updateBoard i (fun b => { b with state := new }) s
  journal { kind := .board, level := s.ce.level, argA := boardAddress i, argB := new.code + 256 * old.code }
    { s₁ with lc := { s₁.lc with changed := true, mirror := { s₁.lc.mirror with stale := true } } }

/-- A board becomes ABSENT or MISMATCH: its outgoing list is emptied and its open frame cleared (R129); a jamb
board is lost to the Motion Scheduler (R113), the shoe board to the Crescendo Unit (R70). -/
def dropBoard (i : Fin 16) (new : BoardState) (s : State) : State :=
  let s₁ := updateBoard i (fun b => { b with outgoing := [], openFrame := none }) (changeBoard i new s)
  let s₂ := if (s.desc.board i).kind = .jamb then loseBoard i s₁ else s₁
  if s.desc.isShoeBoard i then loseShoe s₂ else s₂

/-- A board becomes PRESENT by a census reply (R122): the toggle is set opposite to the one the board reports; a
jamb board is adopted or resynchronised (R88, R89, R114). -/
def admitBoard (i : Fin 16) (r : CensusReply) (s : State) : State :=
  let s₁ := changeBoard i .present
    (updateBoard i (fun b =>
      { b with reason := .none, toggle := !r.lastToggle, openFrame := none, missRun := 0 }) s)
  if (s.desc.board i).kind = .jamb then regainBoard i (adoptContacts i r.levels s₁) else s₁

/-- How a census reply disagrees with the board's record; `none` where it matches (R122). -/
def BoardRec.disagreement (rec : BoardRec) (r : CensusReply) : MismatchReason :=
  if r.kind ≠ rec.kind.code then .kind
  else if (rec.kind = .jamb ∧ (r.contacts < rec.contacts ∨ r.coils < rec.coils ∨ r.lamps < rec.lamps)) ∨
      (rec.kind = .chest ∧ r.chestBits < rec.chestBits) then .count
  else if rec.shoe ∧ ¬ r.shoe then .shoe
  else .none

/-- One census attempt of a board that is UNKNOWN has ended (R123). -/
def BoardLink.attempted (b : BoardLink) : BoardLink :=
  if b.state = .unknown then { b with attempts := b.attempts + 1 } else b

/-- A valid CENSUS reply (R122). -/
def censusReplied (i : Fin 16) (r : CensusReply) (s : State) : State :=
  let s₁ := updateBoard i BoardLink.attempted s
  let why := (s.desc.board i).disagreement r
  match s.lc.boards[i].state with
  | .unknown | .absent =>
    if why = .none then admitBoard i r s₁
    else dropBoard i .mismatch (updateBoard i (fun b => { b with reason := why }) s₁)
  | .mismatch =>
    if why = .none then admitBoard i r s₁ else updateBoard i (fun b => { b with reason := why }) s₁
  | .present | .suspect => s₁

/-- A failed CENSUS exchange: the third attempt of an UNKNOWN board makes it ABSENT (R122, R123). -/
def censusFailed (i : Fin 16) (s : State) : State :=
  let s₁ := updateBoard i BoardLink.attempted s
  if s.lc.boards[i].state = .unknown ∧ s.lc.boards[i].attempts + 1 ≥ 3 then dropBoard i .absent s₁ else s₁

/-- A failed POLL exchange: PRESENT becomes SUSPECT, and the third of a run makes the board ABSENT (R122). -/
def pollFailed (i : Fin 16) (s : State) : State :=
  match s.lc.boards[i].state with
  | .present => changeBoard i .suspect (updateBoard i (fun b => { b with missRun := 1 }) s)
  | .suspect =>
    let s₁ := updateBoard i (fun b => { b with missRun := b.missRun + 1 }) s
    if s.lc.boards[i].missRun + 1 ≥ 3 then dropBoard i .absent s₁ else s₁
  | .unknown | .absent | .mismatch => s

/-- A failed exchange, miss or bad (R126). -/
def exchangeFailed (i : Fin 16) (frame : LinkFrame) (s : State) : State :=
  if frame.isCensus then censusFailed i s else pollFailed i s

/-- A counter goes up by one and stops at 255 (R133). -/
def saturate (n : Nat) : Nat := if n < 255 then n + 1 else n

/-- A counter of a board increases; each increase marks the mirrors stale, one at 255 too (R133). -/
def increaseCounter (i : Fin 16) (f : BoardLink → BoardLink) (s : State) : State :=
  let s₁ := updateBoard i f s
  { s₁ with lc := { s₁.lc with mirror := { s₁.lc.mirror with stale := true } } }

/-! ### Replies (R126, R128, R131) -/

/-- A valid, acknowledging POLL reply (R128). -/
def pollAcknowledged (i : Fin 16) (r : PollReply) (s : State) : State :=
  let commands := match s.lc.boards[i].openFrame with
    | some o => o.commands
    | none => []
  -- step 1: the open frame's commands leave the list, which marks the mirrors (R134), and their pulses start (R106)
  let s₁ := startPulses commands (markStale s
    (updateBoard i (fun b => { b with
      outgoing := b.outgoing.drop commands.length, toggle := !b.toggle, openFrame := none, missRun := 0 }) s))
  -- step 3: a SUSPECT board is PRESENT again
  let s₂ := if s.lc.boards[i].state = .suspect then changeBoard i .present s₁ else s₁
  -- step 4: the samples go to the Contact Scanner and, for the shoe board, to the Crescendo Unit
  let s₃ := if (s.desc.board i).kind = .jamb then contactSample i r.levels s₂ else s₂
  if s.desc.isShoeBoard i then shoeSample r.shoeValid r.shoe s₃ else s₃

/-- The judgement on a reply (R126); `bad` stands also for a valid reply that does not acknowledge, which is
counted and treated as bad. -/
inductive Judgement where
  | bad
  | poll (r : PollReply)
  | census (r : CensusReply)
  deriving DecidableEq, Repr

/-- The judgement on the bytes read in the reply window of an exchange (R126). -/
def judgeReply (i : Fin 16) (rec : BoardRec) (toggle : Bool) (frame : LinkFrame) (all : List Byte) : Judgement :=
  let n := replyLength frame all
  let bytes := all.take n
  if !replyCheckOk bytes n then .bad
  else if byteAt bytes 0 ≠ boardAddress i then .bad
  else if frame.isCensus then
    if bytes.getD 1 0 = censusReplyType then .census (censusReplyOf bytes) else .bad
  else if bytes.getD 1 0 ≠ pollReplyType then .bad
  else if (pollReplyOf bytes).kind ≠ rec.kind.code then .bad
  else if (pollReplyOf bytes).echo ≠ toggle then .bad
  else .poll (pollReplyOf bytes)

/-- An exchange ends bad: the bad-reply counter goes up, and the exchange has failed (R126, R133). -/
def exchangeBad (i : Fin 16) (frame : LinkFrame) (s : State) : State :=
  exchangeFailed i frame (increaseCounter i (fun b => { b with bads := saturate b.bads }) s)

/-- An exchange ends as a miss: the miss counter goes up, and the exchange has failed (R126, R133). -/
def exchangeMissed (i : Fin 16) (frame : LinkFrame) (s : State) : State :=
  exchangeFailed i frame (increaseCounter i (fun b => { b with misses := saturate b.misses }) s)

/-- The effect of a judged reply. -/
def takeReply (i : Fin 16) (frame : LinkFrame) (j : Judgement) (s : State) : State :=
  match j with
  | .bad => exchangeBad i frame s
  | .poll r => pollAcknowledged i r s
  | .census r => censusReplied i r s

/-- The line is idle. -/
def idleLine (s : State) : State := { s with lc := { s.lc with exchange := .idle } }

/-! ### The boards' side (R121) -/

/-- What a board does with a valid frame addressed to it (R121): the bits it applies, the commands it starts, the toggle
it accepts, and the reply it sends. -/
def BoardSide.receive (b : BoardSide) : LinkFrame → BoardSide
  | .pollJamb toggle commands lamps =>
    { b with
      lamps := lamps, started := if toggle = b.lastToggle then [] else commands, lastToggle := toggle
      reply := some (.poll toggle) }
  | .pollChest toggle bits =>
    { b with chest := bits, started := [], lastToggle := toggle, reply := some (.poll toggle) }
  | .census => { b with started := [], reply := some (.census b.lastToggle) }

/-- What a board itself is and reads as it replies (R121): its kind and capability counts, whether it carries a shoe
sensor, its contact levels and its shoe sample. None of it is state of the part; it comes from the console. -/
structure BoardReading where
  kind : BoardKind
  contacts : Nat
  coils : Nat
  lamps : Nat
  shoe : Bool
  chestBits : Nat
  levels : BitVec 64
  shoeValid : Bool
  sample : Nat
  deriving DecidableEq, Repr

/-- What a board fills its reply with: a CHEST board sends 0 in the contact levels and the shoe fields (R119). -/
def BoardReading.sent (r : BoardReading) : BoardReading :=
  if r.kind = .chest then { r with shoe := false, levels := 0, shoeValid := false, sample := 0 } else r

/-- The bytes of a reply with these fields before its check (R121, R164); unused bytes are 0. -/
def BoardReply.body (i : Fin 16) (r : BoardReading) : BoardReply → List Byte
  | .poll echo =>
    [BitVec.ofNat 8 (boardAddress i), pollReplyType, BitVec.ofNat 8 r.kind.code, BitVec.ofNat 8 echo.toNat] ++
      bytesLE 8 r.levels.toNat ++ [BitVec.ofNat 8 r.shoeValid.toNat, 0] ++ bytesBE 2 r.sample
  | .census lastToggle =>
    [BitVec.ofNat 8 (boardAddress i), censusReplyType, BitVec.ofNat 8 r.kind.code, BitVec.ofNat 8 lastToggle.toNat,
      BitVec.ofNat 8 r.contacts, BitVec.ofNat 8 r.coils, BitVec.ofNat 8 r.lamps, BitVec.ofNat 8 r.shoe.toNat] ++
      bytesBE 2 r.chestBits ++ bytesLE 8 r.levels.toNat

/-- The bytes of a reply as a board of this reading sends them, its check last, high byte first (R120, R121, R164). -/
def BoardReply.bytes (i : Fin 16) (r : BoardReading) (reply : BoardReply) : List Byte :=
  reply.body i r.sent ++ bytesBE 2 (frameCheck (reply.body i r.sent)).toNat

/-- A frame reaches the board it is addressed to, or does not. -/
def deliver (received : Bool) (i : Fin 16) (frame : LinkFrame) (s : State) : State :=
  if received then { s with line := s.line.set i (s.line[i].receive frame) i.isLt } else s

/-- An exchange in progress is ended (R135): a request being sent is sent to its end, and the line is then left
idle; a reply arriving afterwards is discarded. -/
def endExchange (s : State) : State :=
  match s.lc.exchange with
  | .sending i frame => { s with lc := { s.lc with exchange := .idle, draining := s.lc.draining ++ [(i, frame)] } }
  | _ => idleLine s

/-! ### Commands -/

/-- ROUND_START (R125): the console clock reaches the due time, and the next round starts. Outside CENSUS and
RUNNING, during a round, or where another event is due sooner, the event does not take place (log entry 3). -/
def execRoundStart (s : State) : Host.Outcome State Fault Refusal :=
  if (s.part = .census ∨ s.part = .running) ∧ s.lc.inRound = false ∧ s.isNextDue s.lc.due = true then
    finish s (openRound (reachTime s.lc.due s))
  else finish s s

/-- REQUEST_FRAME_SENT (R119, R121): the last byte of the frame being sent has left, the board receives it or does
not, and the reply window opens; a frame whose exchange has been ended opens none, and is on the line before any later
one (R135). -/
def execRequestFrameSent (received : Bool) (s : State) : Host.Outcome State Fault Refusal :=
  match s.lc.draining with
  | (i, frame) :: rest => finish s (deliver received i frame { s with lc := { s.lc with draining := rest } })
  | [] =>
    match s.lc.exchange with
    | .sending i frame =>
      finish s (deliver received i frame { s with lc := { s.lc with exchange := .window i frame } })
    | _ => finish s s

/-- REPLY_RECEIVED (R126): a reply has been read in the reply window; bytes outside a window are discarded
(R119). -/
def execReplyReceived (bytes : List Byte) (s : State) : Host.Outcome State Fault Refusal :=
  match s.lc.exchange with
  | .window i frame =>
    finish s (passOn i (takeReply i frame
      (judgeReply i (s.desc.board i) s.lc.boards[i].toggle frame bytes) (idleLine s)))
  | _ => finish s s

/-- REPLY_TIMEOUT (R119): the exchange ends as a miss. -/
def execReplyTimeout (s : State) : Host.Outcome State Fault Refusal :=
  match s.lc.exchange with
  | .window i frame => finish s (passOn i (exchangeMissed i frame (idleLine s)))
  | _ => finish s s

/-- SHORT_REPLY (R120): the reply has no complete check field and is judged as failing its check. -/
def execShortReply (s : State) : Host.Outcome State Fault Refusal :=
  match s.lc.exchange with
  | .window i frame => finish s (passOn i (exchangeBad i frame (idleLine s)))
  | _ => finish s s

/-- LINK_MIRROR_UPDATE (R134): the update in progress makes its last writes, the count becomes even, and BRD is
raised if the update shows a change of board state. -/
def execLinkMirrorUpdate (s : State) : Host.Outcome State Fault Refusal :=
  if s.lc.mirror.updating then
    let s₁ := finishWrite .lc .mirror s
    let s₂ := { s₁ with lc := { s₁.lc with mirror := s₁.lc.mirror.ended, showing := false } }
    finish s (if s.lc.showing then raise .brd s₂ else s₂)
  else finish s s

end Sys2Proof.Machine
end

