-- ==== Sys2Proof/Machine/Description.lean ====
section
/-! DEFINITION. The Description Loader (01_stops_divisions_and_the_console_description.md): the fields it reads, the
checks in the order of R12, the error report, the hand-over, and its two commands. -/

namespace Sys2Proof.Machine

/-! ### Fields (R160) -/

/-- The fields of a record, offset and size, in the order they are read: ascending offset (log entry 9). The fields
of a crescendo program are not of fixed places. -/
def LoadPlace.fields : LoadPlace → List (Nat × Nat)
  | .header =>
    [(0, 2), (2, 2), (4, 1), (5, 1), (6, 1), (7, 1), (8, 2), (10, 2), (12, 2), (14, 1), (15, 1), (16, 1), (17, 1),
      (18, 2), (20, 2), (22, 1), (23, 1), (24, 1), (25, 1)]
  | .division _ => [(0, 1), (1, 1)]
  | .board _ => [(0, 1), (1, 1), (2, 1), (3, 1), (4, 1), (6, 2)]
  | .stop _ =>
    [(0, 1), (1, 1), (2, 1), (3, 1), (4, 1), (5, 1), (6, 1), (7, 1), (8, 1), (9, 1), (10, 1), (11, 1), (12, 1),
      (13, 1), (14, 1)]
  | .piston _ => [(0, 1), (1, 1), (2, 1), (3, 1), (4, 1), (5, 1), (6, 2)]
  | .program _ _ => []

/-- The address of a record. -/
def LoadPlace.base : LoadPlace → Nat
  | .header => headerBase
  | .division d => divisionAddr d
  | .board i => boardAddr i
  | .stop i => stopAddr i
  | .piston i => pistonAddr i
  | .program p _ => programAddr p

/-- The `k`-th of the fields read, 0 where there is none. -/
def fieldAt (f : List Nat) (k : Nat) : Nat := f.getD k 0

/-- The function codes of the piston map that take argument 1, and argument 2 (R9, R160). -/
def takesArgument1 (function : Nat) : Bool := function == 0 || function == 1
def takesArgument2 (function : Nat) : Bool := function == 1 || function == 10

/-- Whether the field after these is one that is not read: the coil, class, pulse and settle of a LIT stop (R7), the
numbers of an absent mapping (R8), an argument that the function does not take (R9). -/
def LoadPlace.skips (place : LoadPlace) (f : List Nat) : Bool :=
  match place with
  | .stop _ =>
    (decide (4 ≤ f.length ∧ f.length ≤ 7) && fieldAt f 0 == 1) ||
      (f.length == 11 && fieldAt f 10 == 0) ||
      ((f.length == 13 || f.length == 14) && fieldAt f 12 == 0)
  | .piston _ =>
    (f.length == 5 && !takesArgument1 (fieldAt f 2)) || (f.length == 6 && !takesArgument2 (fieldAt f 2))
  | .header | .division _ | .board _ | .program _ _ => false

/-- The fields read so far, with 0 for those after them that are not read; at most `n` are added. -/
def LoadPlace.padded (place : LoadPlace) : Nat → List Nat → List Nat
  | 0, f => f
  | n + 1, f => if f.length < place.fields.length ∧ place.skips f then place.padded n (f ++ [0]) else f

/-- The next field of a record to be read, as address and size; `none` where the record has been read in full. -/
def LoadPlace.nextField (place : LoadPlace) (f : List Nat) : Option (Nat × Nat) :=
  match place with
  | .program p read => some (programAddr p + read.offset, 2)
  | _ => (place.fields[f.length]?).map (fun o => (place.base + o.1, o.2))

/-! ### Codes (R13) -/

def codeCountRange : Nat := 1
def codeFieldRange : Nat := 2
def codeBoardKind : Nat := 3
def codeContactClash : Nat := 4
def codeCoilClash : Nat := 5
def codeLampClash : Nat := 6
def codeChestClash : Nat := 7
def codeShoeCount : Nat := 8
def codeCalRange : Nat := 9
def codeCrescRange : Nat := 10
def codeLevelRange : Nat := 11

/-- The record classes HEADER, DIVISION, BOARD, STOP, PISTON and PROGRAM (R13). -/
def LoadPlace.recordClass : LoadPlace → Nat
  | .header => 0 | .division _ => 1 | .board _ => 2 | .stop _ => 3 | .piston _ => 4 | .program _ _ => 5

/-- The record index of a report (R2, R4, R5, R6, R9, R10). -/
def LoadPlace.recordIndex : LoadPlace → Nat
  | .header => 0
  | .division d => d
  | .board i => i + 1
  | .stop i => i
  | .piston i => i
  | .program p _ => p

/-- The code of the first check that fails (R12). -/
def firstFailure : List (Bool × Nat) → Option Nat
  | [] => none
  | (ok, code) :: checks => if ok then firstFailure checks else some code

/-- A value within bounds, both included. -/
def within (low high v : Nat) : Bool := decide (low ≤ v) && decide (v ≤ high)

/-- The debounce depths (R6, R9). -/
def isDepth (v : Nat) : Bool := v == 1 || v == 2 || v == 4 || v == 8

/-! ### Header (R2) -/

/-- The header of its fields as read. -/
def headerOf (f : List Nat) : Header where
  stops := fieldAt f 1
  divisions := fieldAt f 2
  boards := fieldAt f 3
  generals := fieldAt f 4
  startLevel := fieldAt f 5
  levels := fieldAt f 6
  pistons := fieldAt f 7
  budget := fieldAt f 8
  roundPeriod := fieldAt f 9
  replyTimeout := fieldAt f 10
  filterShift := fieldAt f 11
  hysteresis := fieldAt f 12
  lo := fieldAt f 13
  hi := fieldAt f 14
  startProgram := fieldAt f 15
  tuttiLock := fieldAt f 16 == 1
  captureEnable := fieldAt f 17 == 1
  captureScope := BitVec.ofNat 8 (fieldAt f 18)

/-- The checks of R2 in the order of its table. -/
def headerChecks (f : List Nat) : List (Bool × Nat) :=
  [(fieldAt f 0 == 0xC384, codeFieldRange),
    (within 1 384 (fieldAt f 1), codeCountRange),
    (within 1 8 (fieldAt f 2), codeCountRange),
    (within 1 16 (fieldAt f 3), codeCountRange),
    (within 0 48 (fieldAt f 4), codeCountRange),
    (within 1 256 (fieldAt f 6), codeCountRange),
    (within 0 256 (fieldAt f 7), codeCountRange),
    (within 10 400 (fieldAt f 8), codeFieldRange),
    (within 2 20 (fieldAt f 9), codeFieldRange),
    (within 1 20 (fieldAt f 10), codeFieldRange),
    (within 0 4 (fieldAt f 11), codeFieldRange),
    (within 0 32 (fieldAt f 12), codeFieldRange),
    (within 0 3 (fieldAt f 15), codeFieldRange),
    (within 0 1 (fieldAt f 16), codeFieldRange),
    (within 0 1 (fieldAt f 17), codeFieldRange),
    (within 0 4095 (fieldAt f 13), codeFieldRange),
    (within 0 4095 (fieldAt f 14), codeFieldRange),
    (decide (fieldAt f 13 + 256 ≤ fieldAt f 14), codeCalRange),
    (decide (fieldAt f 5 < fieldAt f 6), codeLevelRange)]

/-! ### Divisions and boards (R4, R5) -/

/-- The follow division of its byte: 0xFF for NONE (R160). -/
def followOfByte (v : Nat) : Option Nat := if v = 0xFF then none else some v

def divisionOf (f : List Nat) : DivisionRec := ⟨fieldAt f 0, followOfByte (fieldAt f 1)⟩

/-- The checks of R4 on the record of division `d`. -/
def divisionChecks (h : Header) (d : Nat) (f : List Nat) : List (Bool × Nat) :=
  [(within 0 10 (fieldAt f 0), codeCountRange),
    (fieldAt f 1 == 0xFF || (decide (fieldAt f 1 < h.divisions) && fieldAt f 1 != d), codeFieldRange)]

/-- The record of a board: the counts that do not belong to its kind are ignored (R5). A shoe
flag byte is set where it is not 0 (log entry 19). -/
def boardOf (f : List Nat) : BoardRec :=
  match fieldAt f 0 with
  | 1 => { kind := .jamb, contacts := fieldAt f 1, coils := fieldAt f 2, lamps := fieldAt f 3, shoe := fieldAt f 4 != 0 }
  | 2 => { kind := .chest, chestBits := fieldAt f 5 }
  | _ => {}

/-- The checks of R5, in order, against the boards of lower address. -/
def boardChecks (lower : List BoardRec) (f : List Nat) : List (Bool × Nat) :=
  let jamb := fieldAt f 0 == 1
  let chest := fieldAt f 0 == 2
  [(within 0 2 (fieldAt f 0), codeFieldRange),
    (!jamb || (within 0 64 (fieldAt f 1) && within 0 32 (fieldAt f 2) && within 0 32 (fieldAt f 3)), codeCountRange),
    (!chest || within 0 128 (fieldAt f 5), codeCountRange),
    (!chest || fieldAt f 4 == 0, codeBoardKind),
    (!(jamb && fieldAt f 4 != 0) || !lower.any (fun b => b.kind == .jamb && b.shoe), codeShoeCount)]

/-! ### Stops (R6, R7, R8, R11) -/

/-- The board record an address names; addresses above the board count are of kind NONE (R5). -/
def Desc.boardAt (d : Desc) (address : Nat) : BoardRec := if address = 0 then {} else d.boards.getD (address - 1) {}

/-- The record of a stop as read. -/
def stopRecOf (f : List Nat) : StopRec where
  kind := if fieldAt f 0 = 1 then .lit else .moved
  division := fieldAt f 1
  board := fieldAt f 2
  contact := fieldAt f 3
  coil := fieldAt f 4
  currentClass := fieldAt f 5
  pulse := fieldAt f 6
  settle := fieldAt f 7
  depth := fieldAt f 8
  exempt := fieldAt f 9 == 1
  lamp := if fieldAt f 10 = 1 then some (fieldAt f 11) else none
  chest := if fieldAt f 12 = 1 then some (fieldAt f 13, fieldAt f 14) else none

/-- The common fields (R6). -/
def commonChecks (d : Desc) (f : List Nat) : List (Bool × Nat) :=
  let board := d.boardAt (fieldAt f 2)
  [(within 0 1 (fieldAt f 0), codeFieldRange),
    (decide (fieldAt f 1 < d.header.divisions), codeFieldRange),
    (within 1 16 (fieldAt f 2), codeFieldRange),
    (board.kind == .jamb, codeBoardKind),
    (decide (fieldAt f 3 < board.contacts), codeFieldRange),
    (isDepth (fieldAt f 8), codeFieldRange),
    (within 0 1 (fieldAt f 9), codeFieldRange)]

/-- The fields of a MOVED stop alone (R7). -/
def movedChecks (d : Desc) (f : List Nat) : List (Bool × Nat) :=
  let lit := fieldAt f 0 == 1
  [(lit || decide (fieldAt f 4 < (d.boardAt (fieldAt f 2)).coils), codeFieldRange),
    (lit || within 1 40 (fieldAt f 5), codeFieldRange),
    (lit || within 10 250 (fieldAt f 6), codeFieldRange),
    (lit || within 0 100 (fieldAt f 7), codeFieldRange)]

/-- The lamp and the chest mapping (R8). -/
def mappingChecks (d : Desc) (f : List Nat) : List (Bool × Nat) :=
  let noLamp := fieldAt f 10 == 0
  let noChest := fieldAt f 12 == 0
  let chest := d.boardAt (fieldAt f 13)
  [(within 0 1 (fieldAt f 10), codeFieldRange),
    (noLamp || decide (fieldAt f 11 < (d.boardAt (fieldAt f 2)).lamps), codeFieldRange),
    (within 0 1 (fieldAt f 12), codeFieldRange),
    (noChest || within 1 16 (fieldAt f 13), codeFieldRange),
    (noChest || chest.kind == .chest, codeBoardKind),
    (noChest || decide (fieldAt f 14 < chest.chestBits), codeFieldRange)]

/-- Two stops use one contact; two MOVED stops one coil; two stops one lamp; two stops one chest bit (R11). -/
def StopRec.sameContact (a b : StopRec) : Bool := a.board == b.board && a.contact == b.contact
def StopRec.sameCoil (a b : StopRec) : Bool :=
  a.kind == .moved && b.kind == .moved && a.board == b.board && a.coil == b.coil
def StopRec.sameLamp (a b : StopRec) : Bool := a.lamp.isSome && a.board == b.board && a.lamp == b.lamp
def StopRec.sameChest (a b : StopRec) : Bool := a.chest.isSome && a.chest == b.chest

/-- The clashes of a stop record with the stops before it (R11). -/
def stopClashChecks (d : Desc) (r : StopRec) : List (Bool × Nat) :=
  [(!d.stops.any r.sameContact, codeContactClash),
    (!d.stops.any r.sameCoil, codeCoilClash),
    (!d.stops.any r.sameLamp, codeLampClash),
    (!d.stops.any r.sameChest, codeChestClash)]

/-- The checks of a stop record in the order of R12. -/
def stopChecks (d : Desc) (f : List Nat) : List (Bool × Nat) :=
  commonChecks d f ++ movedChecks d f ++ mappingChecks d f ++ stopClashChecks d (stopRecOf f)

/-! ### Piston map (R9, R11) -/

/-- The function of its code with its arguments (R9, R160). -/
def functionOf (code argument1 argument2 : Nat) : PistonFunction :=
  match code with
  | 0 => .general argument1
  | 1 => .divisional argument1 argument2
  | 2 => .cancel
  | 4 => .next
  | 5 => .prev
  | 6 => .levelUp
  | 7 => .levelDown
  | 8 => .tutti
  | 9 => .undo
  | 10 => .reversible argument2
  | _ => .set

def pistonOf (f : List Nat) : PistonRec where
  board := fieldAt f 0
  contact := fieldAt f 1
  function := functionOf (fieldAt f 2) (fieldAt f 5) (fieldAt f 6)
  origin := if fieldAt f 3 = 1 then .toe else .thumb
  depth := fieldAt f 4

/-- The check of an entry's argument (R9). -/
def argumentOk (d : Desc) (f : List Nat) : Bool :=
  match fieldAt f 2 with
  | 0 => decide (fieldAt f 5 < d.header.generals)
  | 1 =>
    decide (fieldAt f 5 < d.header.divisions) && decide (fieldAt f 6 < (d.division (fieldAt f 5)).pistons)
  | 10 => decide (fieldAt f 6 < d.header.stops)
  | _ => true

/-- The checks of a piston map entry, its clash with every stop and every entry before it last (R9, R11). -/
def pistonChecks (d : Desc) (f : List Nat) : List (Bool × Nat) :=
  let board := d.boardAt (fieldAt f 0)
  [(within 1 16 (fieldAt f 0), codeFieldRange),
    (board.kind == .jamb, codeBoardKind),
    (decide (fieldAt f 1 < board.contacts), codeFieldRange),
    (within 0 10 (fieldAt f 2), codeFieldRange),
    (argumentOk d f, codeFieldRange),
    (within 0 1 (fieldAt f 3), codeFieldRange),
    (isDepth (fieldAt f 4), codeFieldRange),
    (!d.stops.any (fun r => r.board == fieldAt f 0 && r.contact == fieldAt f 1) &&
      !d.pistons.any (fun p => p.board == fieldAt f 0 && p.contact == fieldAt f 1), codeContactClash)]

/-! ### The order of the records (R12) -/

/-- The checks of a record that has been read in full, against the records that have passed. -/
def recordChecks (d : Desc) (place : LoadPlace) (f : List Nat) : List (Bool × Nat) :=
  match place with
  | .header => headerChecks f
  | .division i => divisionChecks d.header i f
  | .board _ => boardChecks d.boards f
  | .stop _ => stopChecks d f
  | .piston _ => pistonChecks d f
  | .program _ _ => []

/-- The working copy with a record that has passed. -/
def Desc.withRecord (d : Desc) (place : LoadPlace) (f : List Nat) : Desc :=
  match place with
  | .header => { header := headerOf f }
  | .division _ => { d with divisions := d.divisions ++ [divisionOf f] }
  | .board _ => { d with boards := d.boards ++ [boardOf f] }
  | .stop _ => { d with stops := d.stops ++ [stopRecOf f] }
  | .piston _ => { d with pistons := d.pistons ++ [pistonOf f] }
  | .program _ _ => d

/-- The record after one that has passed (R12). -/
def nextPlace (h : Header) : LoadPlace → LoadPlace
  | .header => .division 0
  | .division d => if d + 1 < h.divisions then .division (d + 1) else .board 0
  | .board i => if i + 1 < h.boards then .board (i + 1) else .stop 0
  | .stop i => if i + 1 < h.stops then .stop (i + 1) else if h.pistons = 0 then .program 0 {} else .piston 0
  | .piston i => if i + 1 < h.pistons then .piston (i + 1) else .program 0 {}
  | .program p _ => .program (p + 1) {}

/-! ### The hand-over (R14, R15) -/

/-- The program that R15 makes active. -/
def State.activeProgram (h : Header) (s : State) : Nat :=
  if s.dl.loadCause = some .soft then s.cu.program.getD 0 else h.startProgram

/-- The current level, capture enable and capture scope settle by the load cause (R15). -/
def settleCombination (h : Header) (s : State) : State :=
  if s.dl.loadCause = some .hard then setCapture h.captureEnable h.captureScope (setLevel h.startLevel s)
  else if s.ce.level ≥ h.levels then setLevel (h.levels - 1) s
  else s

/-- The Crescendo Unit takes the active program, lo and hi by the load cause (R15, R77, R84). -/
def settleCrescendo (load : Load) (s : State) : State :=
  let soft := s.dl.loadCause = some .soft
  recompute { s with cu := { s.cu with
    signal := .none
    q := 0
    stage := 0
    program := some (s.activeProgram load.copy.header)
    stageCount := load.program.length
    images := stageImages 0 load.program
    lo := if soft then s.cu.lo else load.copy.header.lo
    hi := if soft then s.cu.hi else load.copy.header.hi
    loading := none } }

/-- The last check has passed: the working copy is valid and handed over, the part enters CENSUS, and its first
census round starts (R14, R15, R125). -/
def handOver (load : Load) (s : State) : State :=
  openCensusRound (changePart .census
    (settleCrescendo load (settleCombination load.copy.header
      { s with dl := { s.dl with valid := true, copy := load.copy, loadedOnce := true, phase := .idle } })))

/-! ### The course of a load (R1, R12, R13) -/

/-- The read of the next field of a load starts. -/
def readLoadField (load : Load) (s : State) : State :=
  match load.place.nextField load.fields with
  | some (a, n) => startRead .dl a n { s with dl := { s.dl with phase := .reading load } }
  | none => { s with dl := { s.dl with phase := .reading load } }

/-- The load goes on at a record. -/
def readRecord (load : Load) (place : LoadPlace) (s : State) : State :=
  readLoadField { load with place := place, fields := [] } s

/-- The result value of a RELOAD whose load has failed (R13). -/
def reportValue (code cls index : Nat) : Nat := code + 256 * cls + 65536 * index

/-- A check has failed: the report is set and its writes start; the cell of a RELOAD is completed RANGE (R13). -/
def failLoad (place : LoadPlace) (code : Nat) (s : State) : State :=
  let s₁ := writeReport .report { s with dl := { s.dl with
    errorCode := code, recordClass := place.recordClass, recordIndex := place.recordIndex
    phase := .reporting s.rs.reloadCell } }
  match s₁.rs.reloadCell with
  | some c =>
    complete c .range (reportValue code place.recordClass place.recordIndex)
      { s₁ with rs := { s₁.rs with reloadCell := none } }
  | none => s₁

/-- A program has been read whole: its contents are kept if R15 makes it active (R10). -/
def endProgram (load : Load) (p : Nat) (stages : List (List Nat)) (s : State) : State :=
  let load := if p = s.activeProgram load.copy.header then { load with program := stages } else load
  if p < 3 then readRecord load (nextPlace load.copy.header (.program p {})) s else handOver load s

/-- The value of a field of a load has been read. A record is checked once it has been read in full (R1); a field of
a crescendo program is checked as it is read, so that no stage record after a bad one is read (R10; log entry 18). -/
def takeLoadField (load : Load) (v : Nat) (s : State) : State :=
  match load.place with
  | .program p read =>
    match read.take load.copy.header.stops v with
    | .failed _ => failLoad load.place codeCrescRange s
    | .more read => readLoadField { load with place := .program p read } s
    | .whole stages => endProgram load p stages s
  | place =>
    let f := place.padded place.fields.length (load.fields ++ [v])
    if f.length < place.fields.length then readLoadField { load with fields := f } s
    else match firstFailure (recordChecks load.copy place f) with
      | some code => failLoad place code s
      | none =>
        let copy := load.copy.withRecord place f
        readRecord { load with copy := copy } (nextPlace copy.header place) s

/-! ### Commands -/

/-- DESCRIPTION_READ_COMPLETION (R1): the field read of the load completes. -/
def execDescriptionReadCompletion (s : State) : Host.Outcome State Fault Refusal :=
  match s.dl.phase with
  | .reading load =>
    let s₁ := finishRead .dl s
    finish s (takeLoadField load (natLE (s₁.readBytes .dl)) s₁)
  | _ => finish s s

/-- The report has been written: the part enters DESC_ERROR, unless the completion of a RELOAD cell is still to be
written (R13). -/
def endReport (cell : Option Nat) (s : State) : State :=
  match cell with
  | some c =>
    if s.completionWaits c then { s with dl := { s.dl with phase := .awaitingCell c } }
    else changePart .descError { s with dl := { s.dl with phase := .idle } }
  | none => changePart .descError { s with dl := { s.dl with phase := .idle } }

/-- ERROR_REPORT_WRITE_COMPLETION (R13). -/
def execErrorReportWriteCompletion (s : State) : Host.Outcome State Fault Refusal :=
  match s.dl.phase with
  | .reporting cell => finish s (endReport cell (finishWrite .dl .report s))
  | _ => finish s s

end Sys2Proof.Machine
end

