-- ==== Sys2Proof/Machine/StartUp.lean ====
section
/-! DEFINITION. Start-up and the register window (11_register_window_and_start_up.md): the entry to LOADING, the
way to HALTED, the effect of a CONTROL write, and the commands that come over the port and the reset pin. -/

namespace Sys2Proof.Machine

/-! ### The entry to LOADING, block by block

R1, R38, R59, R68, R84, R97, R118, R135, R145, R149. -/

/-- The cells that an entry to LOADING abandons, ascending: outstanding, not the reload cell, and without a result
that waits to be written (R145). -/
def State.abandonedCells (s : State) : List Nat :=
  (List.range Config.cellCount).filter (fun c =>
    s.rs.outstanding.getLsbD c && s.rs.reloadCell != some c && !s.completionWaits c)

/-- The Request Scanner at an entry to LOADING (R145). -/
def loadRequests (s : State) : State :=
  let s₁ := endSweep s
  s₁.abandonedCells.foldl (fun t c => complete c .abandoned 0 t) s₁

/-- An access that outlives the engine's work in flight: a mirror write (R41, R50, R143). -/
def Access.isMirror (a : Access) : Bool := a.isFor .mirror

/-- The Combination Engine at an entry to LOADING (R59); its mirrors are written. -/
def loadCombination (s : State) : State :=
  writeEngineMirrors (keepAccesses .ce Access.isMirror
    { s with ce := { s.ce with queue := [], job := none, undo := [], ti := 0, locks := [] } })

/-- The Sequencer at an entry to LOADING: the position is kept (R68). -/
def loadSequencer (s : State) : State :=
  startWrite .sq .mirror sequencerBase (bytesLE 2 (positionCode s.sq.position) ++ [0])
    (keepAccesses .sq Access.isMirror { s with sq := { s.sq with list := [], job := none } })

/-- The Crescendo Unit at an entry to LOADING: the program number, lo and hi are kept, not used (R84). -/
def loadCrescendo (s : State) : State :=
  { s with cu := { s.cu with
      signal := .none, q := 0, stage := 0, images := [], loading := none
      mirror := { s.cu.mirror with full := true } } }

/-- The Registration Unit at an entry to LOADING (R38). -/
def loadRegistration (s : State) : State :=
  recompute { s with ru := { s.ru with ri := 0, tutti := false, mirror := { s.ru.mirror with full := true } } }

/-- The Motion Scheduler at an entry to LOADING (R117, R118). -/
def loadMotion (s : State) : State :=
  { s with ms := {
      queue := [], committed := 0, energised := 0, fault := 0
      unreachable := BitVec.allOnes 384
      adopted := Vector.replicate 16 false
      declared := false, showing := false
      mirror := { s.ms.mirror with full := true } } }

/-- The Link Controller at an entry to LOADING (R135); the full update raises BRD (R134). -/
def loadLink (s : State) : State :=
  let s₁ := endExchange s
  { s₁ with lc := { s₁.lc with
      boards := Vector.replicate 16 {}, inRound := false, round := 0, clears := [], changed := true
      mirror := { s₁.lc.mirror with full := true } } }

/-- The Journal Writer at an entry to LOADING: at the first since a hard reset it writes 0 to both counts and to its
lost count mirror, before it takes any entry (R149). -/
def loadJournal (s : State) : State :=
  if s.jw.cleared then s
  else
    startWrite .jw .clear lostBase [0, 0] (startWrite .jw .clear journalHeaderBase (List.replicate 8 0)
      { s with jw := { s.jw with phase := .clearing, cleared := true } })

/-- The Description Loader at an entry to LOADING (R1): the copy is not valid, the report is cleared and its mirrors
written, the cause is recorded, and the header's first field is read. Where the load before had failed and bytes of its
report still wait for the port, they are not written: the cleared report takes their place (DEDUCED, log entry 29). -/
def loadDescription (cause : LoadCause) (s : State) : State :=
  let s₁ := keepAccesses .dl (fun _ => false) { s with dl := { s.dl with
    valid := false, copy := {}, errorCode := 0, recordClass := 0, recordIndex := 0, loadCause := some cause } }
  readLoadField {} (writeReport .mirror s₁)

/-- The cause of a load (R1): HARD where none has succeeded since the last hard reset, otherwise the cause given. -/
def State.causeOf (s : State) (cause : LoadCause) : LoadCause := if s.dl.loadedOnce then cause else .hard

/-- The part enters LOADING (R1). -/
def enterLoading (cause : LoadCause) (s : State) : State :=
  changePart .loading (loadDescription (s.causeOf cause) (loadJournal (loadLink (loadMotion (loadRegistration
    (loadCrescendo (loadSequencer (loadCombination (loadRequests
      { s with cs := {} })))))))))

/-! ### The way to HALTED (R16, R38, R50, R59, R68, R80, R118, R135, R144, R145) -/

/-- The completions up to this cell's are written; at most `n` (R16, R144). -/
def drainCompletions (cell : Nat) : Nat → State → State
  | 0, s => s
  | n + 1, s =>
    if s.completionWaits cell then drainCompletions cell n (finishCompletion (finishWrite .rs .complete s)) else s

/-- The reload cell of a load or census that RUN = 0 ends is completed ABANDONED and written DONE (R16, R144;
log entry 11). -/
def abandonReload (s : State) : State :=
  match s.rs.reloadCell with
  | some c =>
    let s₁ := completeReload .abandoned s
    drainCompletions c s₁.rs.completions.length s₁
  | none => s

/-- The Description Loader at a write of RUN = 0 (R16): the load is abandoned; a report goes on to be written (log
entry 29). -/
def haltDescription (s : State) : State :=
  keepAccesses .dl (fun a => !a.isRead) { s with dl := { s.dl with phase := .idle } }

/-- The Combination Engine and the Sequencer: what they have in flight is ended, their lists are kept (R50, R59,
R68, R143). -/
def haltEngines (s : State) : State :=
  let s₁ := setJob none (keepAccesses .ce Access.isMirror { s with ce := { s.ce with locks := [] } })
  keepAccesses .sq Access.isMirror { s₁ with sq := { s₁.sq with job := none } }

/-- The Crescendo Unit: a program load is ended (R80). -/
def haltCrescendo (s : State) : State :=
  keepAccesses .cu Access.isMirror { s with cu := { s.cu with loading := none } }

/-- The Registration Unit: an image mirror update in progress is abandoned (R36, R38; log entry 30). -/
def haltImages (s : State) : State :=
  keepAccesses .ru (fun _ => false)
    { s with ru := { s.ru with mirror := { s.ru.mirror with stale := false, updating := false } } }

/-- The part has entered LOADING since the last hard reset: every entry records a load cause (R1), and a hard reset
leaves none (R155). -/
def State.hasEnteredLoading (s : State) : Bool := s.dl.loadCause.isSome

/-- The Motion Scheduler: the queue is emptied, the tables are kept, the mirrors are marked stale; until the first entry
to LOADING after a hard reset they keep what was written before it (R118). -/
def haltMotion (s : State) : State :=
  let s₁ := { s with ms := { s.ms with queue := [], committed := 0, energised := 0 } }
  if s.hasEnteredLoading then markMotion s₁ else s₁

/-- The Link Controller: the exchange is ended, every outgoing list emptied with its open frame (R135). -/
def haltLink (s : State) : State :=
  let s₁ := endExchange s
  { s₁ with lc := { s₁.lc with
      boards := mapVector (fun b => ({ b with outgoing := [], openFrame := none } : BoardLink)) s₁.lc.boards
      inRound := false, clears := [] } }

/-- The part leaves RUNNING, CENSUS or LOADING for HALTED. -/
def haltWork (s : State) : State :=
  changePart .halted (abandonReload (haltLink (haltMotion (haltImages (haltCrescendo (haltEngines
    (haltDescription (endSweep s))))))))

/-- A write that leaves RUN at 0 (R154). In HALTED and DESC_ERROR no work is in flight but mirror updates: every such
write abandons the image update in progress (R36) and has its effect on the motion mirrors (R118). -/
def halt (s : State) : State :=
  match s.part with
  | .halted => haltMotion (haltImages s)
  | .descError => changePart .halted (haltMotion (haltImages s))
  | .loading | .census | .running => haltWork s

/-! ### CONTROL (R154) -/

/-- A write of RESET with RUN = 1: a RELOAD cell in hand is completed ABANDONED as the part enters LOADING (R16,
R144). At this event its result joins the completion list, and the writes up to its DONE are made during the new load
(DESIGN CHOICE, log entry 41). -/
def softReset (s : State) : State := enterLoading .soft (completeReload .abandoned s)

/-- The effect of a CONTROL write on the part state (R154). -/
def controlWrite (data : BitVec 16) (s : State) : State :=
  let s₁ := { s with run := controlRun data, attnEn := controlAttnEn data }
  if controlRun data then
    if controlReset data then softReset s₁
    else match s.part with
      | .halted | .descError => enterLoading .soft s₁
      | .loading | .census | .running => s₁
  else halt s₁

/-- A register write (R153): while RESET# is low the port ignores it. -/
def registerWrite (addr : BitVec 3) (data : BitVec 16) (s : State) : State :=
  if s.inReset then s
  else if addr = 2 then controlWrite data s
  else if addr = 3 then triggerSweep s
  else if addr = 5 then { s with mask := data.setWidth 8 }
  else s

/-! ### Commands -/

/-- HARD_RESET (R155): every block takes its hard-reset values, every access and the link end at once, and no byte of
console memory is written. The boards keep their side of the link (R135). -/
def execHardReset (s : State) : Host.Outcome State Fault Refusal :=
  finish s { State.reset with inReset := true, mem := s.mem, line := s.line, pending := s.pending }

/-- RESET_RELEASE (R155): RESET# goes high; the part is HALTED and the console clock counts. -/
def execResetRelease (s : State) : Host.Outcome State Fault Refusal := finish s { s with inReset := false }

/-- RUN_SET (R154). -/
def execRunSet (data : BitVec 16) (s : State) : Host.Outcome State Fault Refusal := finish s (registerWrite 2 data s)

/-- RUN_CLEAR (R154). -/
def execRunClear (data : BitVec 16) (s : State) : Host.Outcome State Fault Refusal :=
  finish s (registerWrite 2 data s)

/-- RESET (R154). -/
def execReset (data : BitVec 16) (s : State) : Host.Outcome State Fault Refusal := finish s (registerWrite 2 data s)

/-- ATTN_EN (R152, R154). -/
def execAttnEn (data : BitVec 16) (s : State) : Host.Outcome State Fault Refusal := finish s (registerWrite 2 data s)

/-- CAUSE_READ (R151): the eight flags are returned as they stand, and those returned set are cleared. -/
def execCauseRead (s : State) : Host.Outcome State Fault Refusal :=
  if s.inReset then finish s s else finish s { s with readData := readRegister 4 s, cause := 0 }

/-- MASK_WRITE (R152, R153): the low byte is the mask. -/
def execMaskWrite (data : BitVec 16) (s : State) : Host.Outcome State Fault Refusal :=
  finish s (registerWrite 5 data s)

/-- IGNORED_REGISTER_WRITE (R153): ID, STATE, CAUSE and the unused addresses ignore a write. -/
def execIgnoredRegisterWrite (addr : BitVec 3) (data : BitVec 16) (s : State) : Host.Outcome State Fault Refusal :=
  finish s (registerWrite addr data s)

end Sys2Proof.Machine
end

