-- ==== Sys2Proof/Machine/Requests.lean ====
section
/-! DEFINITION. The requests that the Request Scanner hands on once their cell reads ACCEPTED (R138, R142, R143), and
RELOAD (R144). -/

namespace Sys2Proof.Machine

/-- The ACCEPTED write of a request of this kind completes, the request is handed on, and the sweep moves to the next
cell (R138). Where the sweep holds no such request the event does not take place (log entry 3). The writes of a result
that comes at this event wait for the port before the sweep's next read (DESIGN CHOICE, log entry 16). -/
def handOn (kind : RequestKind) (f : Nat → Request → State → State) (s : State) :
    Host.Outcome State Fault Refusal :=
  match s.rs.sweep with
  | .accepting c r =>
    if r.kind = kind then finish s (sweepOn c (f c r (finishWrite .rs .accept s))) else finish s s
  | _ => finish s s

/-- A request's action record is offered to the action queue (R142). -/
def offerRequest (k : ActionKind) (cell : Nat) (s : State) : State := offerAction ⟨k, .consoleProcessor, some cell⟩ s

/-! ### What is handed on (R42, R43, R51, R115, R133, R143) -/

/-- SELECT_LEVEL (R42). -/
def selectLevel (cell v : Nat) (s : State) : State :=
  if v < s.desc.header.levels then complete cell .ok v (changeLevel v .consoleProcessor s)
  else complete cell .range 0 s

/-- The access makes the second or a later byte of a multi-byte field of a slot that is being written: the high byte of
the check word at +3, the stamp's at +5 to +7, or the stop image's at +9 to +55 (R39, R41, R161). A field's bytes are
consecutive accesses of their block (R157). -/
def Access.continuesField : Access → Bool
  | .write .slot a _ =>
    let offset := if a < slotAddr 0 0 then a - tuttiSlotAddr else (a - slotAddr 0 0) % 56
    offset == 3 || (decide (5 ≤ offset) && offset != 8)
  | _ => false

/-- The accesses of the engine that a new LOCK_LEVEL write comes after: the rest of a field that is being written, and
the LOCK_LEVEL writes before it. -/
def Access.beforeLock (a : Access) : Bool := a.isFor .lock || a.continuesField

/-- The write of a lock byte goes to the memory port at once, beside any action in progress: it is the engine's next
access, before those that the action still has to make (R43; log entry 34). -/
def startLockWrite (v value : Nat) (s : State) : State :=
  let p := s.port.get .ce
  let waiting := p.queue.takeWhile Access.beforeLock ++
    .write .lock (lockAddr v) (BitVec.ofNat 8 value) :: p.queue.dropWhile Access.beforeLock
  { s with port := s.port.put .ce { p with queue := waiting } }

/-- LOCK_LEVEL (R43): the write of the lock byte starts; the request completes when it does. -/
def lockLevel (cell v value : Nat) (s : State) : State :=
  if v ≥ s.desc.header.levels ∨ value > 1 then complete cell .range 0 s
  else startLockWrite v value { s with ce := { s.ce with locks := s.ce.locks ++ [(cell, value)] } }

/-- CAPTURE_SETUP (R51). -/
def setUpCapture (cell enable scope : Nat) (s : State) : State :=
  if enable > 1 then complete cell .range 0 s
  else complete cell .ok scope (setCapture (enable == 1) (BitVec.ofNat 8 scope) s)

/-- CLEAR_FAULTS (R115). -/
def clearFaults (cell : Nat) (s : State) : State :=
  complete cell .ok (stopsOf s.ms.fault).length { s with ms := { s.ms with fault := 0 } }

/-- The sum of all miss and bad-reply counters (R133). -/
def counterSum (boards : List BoardLink) : Nat := (boards.map (fun b => b.misses + b.bads)).sum

/-- CLEAR_COUNTERS (R133): completed at the end of the round, or at once outside a round. -/
def clearCounters (cell : Nat) (s : State) : State :=
  let sum := counterSum s.lc.boards.toList
  let s₁ := { s with lc := { s.lc with
    boards := mapVector (fun b => ({ b with misses := 0, bads := 0 } : BoardLink)) s.lc.boards
    mirror := { s.lc.mirror with stale := true } } }
  if s.lc.inRound then { s₁ with lc := { s₁.lc with clears := s₁.lc.clears ++ [(cell, sum)] } }
  else complete cell .ok sum s₁

/-- The step that a SEQ_STEP asks (R139). -/
def stepKindOf (arg0 : Nat) : StepKind := if arg0 = 0 then .next else .prev

/-! ### Commands -/

/-- RECALL_REQUEST (R142). -/
def execRecallRequest (s : State) : Host.Outcome State Fault Refusal :=
  handOn .recall (fun c r => offerRequest (.recall r.arg0 r.arg1) c) s

/-- CAPTURE_REQUEST (R142). -/
def execCaptureRequest (s : State) : Host.Outcome State Fault Refusal :=
  handOn .capture (fun c r => offerRequest (.capture r.arg0 r.arg1) c) s

/-- CANCEL_REQUEST (R142). -/
def execCancelRequest (s : State) : Host.Outcome State Fault Refusal :=
  handOn .cancel (fun c _ => offerRequest .cancel c) s

/-- TUTTI_REQUEST (R142). -/
def execTuttiRequest (s : State) : Host.Outcome State Fault Refusal :=
  handOn .tutti (fun c r => offerRequest (.tutti (tuttiStateOf r.arg0)) c) s

/-- UNDO_REQUEST (R142). -/
def execUndoRequest (s : State) : Host.Outcome State Fault Refusal := handOn .undo (fun c _ => offerRequest .undo c) s

/-- STOP_SET_REQUEST (R142). -/
def execStopSetRequest (s : State) : Host.Outcome State Fault Refusal :=
  handOn .stopSet (fun c r => offerRequest (.stopSet r.arg1 (r.arg0 == 1)) c) s

/-- SELECT_LEVEL (R42). -/
def execSelectLevel (s : State) : Host.Outcome State Fault Refusal :=
  handOn .selectLevel (fun c r => selectLevel c r.arg0) s

/-- LOCK_LEVEL (R43). -/
def execLockLevel (s : State) : Host.Outcome State Fault Refusal :=
  handOn .lockLevel (fun c r => lockLevel c r.arg0 r.arg1) s

/-- SEQ_SET_REQUEST (R62, R67). -/
def execSeqSetRequest (s : State) : Host.Outcome State Fault Refusal :=
  handOn .seqSet (fun c r => offerStep ⟨.set r.arg1, .consoleProcessor, some c⟩) s

/-- SEQ_STEP (R62). -/
def execSeqStep (s : State) : Host.Outcome State Fault Refusal :=
  handOn .seqStep (fun c r => offerStep ⟨stepKindOf r.arg0, .consoleProcessor, some c⟩) s

/-- CRESC_PROGRAM (R78). -/
def execCrescProgram (s : State) : Host.Outcome State Fault Refusal :=
  handOn .crescProgram (fun c r => startProgram c r.arg0) s

/-- CRESC_CALIBRATE (R81). -/
def execCrescCalibrate (s : State) : Host.Outcome State Fault Refusal :=
  handOn .crescCalibrate (fun c r => calibrate c r.arg0) s

/-- CAPTURE_SETUP (R51). -/
def execCaptureSetup (s : State) : Host.Outcome State Fault Refusal :=
  handOn .captureSetup (fun c r => setUpCapture c r.arg0 r.arg1) s

/-- CLEAR_FAULTS (R115). -/
def execClearFaults (s : State) : Host.Outcome State Fault Refusal := handOn .clearFaults (fun c _ => clearFaults c) s

/-- CLEAR_COUNTERS (R133). -/
def execClearCounters (s : State) : Host.Outcome State Fault Refusal :=
  handOn .clearCounters (fun c _ => clearCounters c) s

/-- The three conditions of R144. -/
def State.atRest (s : State) : Bool := s.ce.queue.isEmpty && s.ce.job.isNone && s.ms.queue.isEmpty

/-- A RELOAD that finds the console at rest (R144): ACCEPTED is written, the cell is kept as the reload cell, and the
part leaves RUNNING for LOADING (log entry 13). -/
def acceptReload (cell : Nat) (s : State) : State :=
  let s₁ := finishWrite .rs .accept (startWrite .rs .accept (cellAddr cell) [cellAccepted] s)
  enterLoading .reload { s₁ with rs := { s₁.rs with
    outstanding := setBit s₁.rs.outstanding cell true, reloadCell := some cell } }

/-- RELOAD (R144): BUSY where the console is not at rest. -/
def execReload (s : State) : Host.Outcome State Fault Refusal :=
  match s.rs.sweep with
  | .reload c => finish s (if s.atRest then acceptReload c s else refuseCell c .busy s)
  | _ => finish s s

end Sys2Proof.Machine
end

