-- ==== Sys2Proof/Machine/Dispatch.lean ====
section
/-! DEFINITION. The dispatch: one arm for each command, each one direct call of that command's meaning. -/

namespace Sys2Proof.Machine

/-- The effect of a command on everything but the queue of waiting commands. -/
def exec (i : Instr) (s : State) : Host.Outcome State Fault Refusal :=
  match i with
  | .hardReset => Sys2Proof.Machine.execHardReset s
  | .resetRelease => Sys2Proof.Machine.execResetRelease s
  | .runSet data => Sys2Proof.Machine.execRunSet data s
  | .runClear data => Sys2Proof.Machine.execRunClear data s
  | .reset data => Sys2Proof.Machine.execReset data s
  | .attnEn data => Sys2Proof.Machine.execAttnEn data s
  | .attention data => Sys2Proof.Machine.execAttention data s
  | .causeRead => Sys2Proof.Machine.execCauseRead s
  | .maskWrite data => Sys2Proof.Machine.execMaskWrite data s
  | .ignoredRegisterWrite addr data => Sys2Proof.Machine.execIgnoredRegisterWrite addr data s
  | .descriptionReadCompletion => Sys2Proof.Machine.execDescriptionReadCompletion s
  | .roundStart => Sys2Proof.Machine.execRoundStart s
  | .requestFrameSent received => Sys2Proof.Machine.execRequestFrameSent received s
  | .replyReceived bytes => Sys2Proof.Machine.execReplyReceived bytes s
  | .replyTimeout => Sys2Proof.Machine.execReplyTimeout s
  | .shortReply => Sys2Proof.Machine.execShortReply s
  | .pulseEnd stop => Sys2Proof.Machine.execPulseEnd stop s
  | .settleEnd stop => Sys2Proof.Machine.execSettleEnd stop s
  | .recall => Sys2Proof.Machine.execRecall s
  | .capture => Sys2Proof.Machine.execCapture s
  | .cancel => Sys2Proof.Machine.execCancel s
  | .tutti => Sys2Proof.Machine.execTutti s
  | .tuttiCapture => Sys2Proof.Machine.execTuttiCapture s
  | .reverse => Sys2Proof.Machine.execReverse s
  | .stopSet => Sys2Proof.Machine.execStopSet s
  | .undo => Sys2Proof.Machine.execUndo s
  | .recallSlotReadCompletion => Sys2Proof.Machine.execRecallSlotReadCompletion s
  | .followSlotReadCompletion => Sys2Proof.Machine.execFollowSlotReadCompletion s
  | .lockByteReadCompletion => Sys2Proof.Machine.execLockByteReadCompletion s
  | .slotWriteCompletion => Sys2Proof.Machine.execSlotWriteCompletion s
  | .tuttiSlotReadCompletion => Sys2Proof.Machine.execTuttiSlotReadCompletion s
  | .tuttiCaptureWriteCompletion => Sys2Proof.Machine.execTuttiCaptureWriteCompletion s
  | .runningTuttiReadCompletion => Sys2Proof.Machine.execRunningTuttiReadCompletion s
  | .lockLevelWriteCompletion => Sys2Proof.Machine.execLockLevelWriteCompletion s
  | .next => Sys2Proof.Machine.execNext s
  | .prev => Sys2Proof.Machine.execPrev s
  | .seqSet => Sys2Proof.Machine.execSeqSet s
  | .lengthWordReadCompletion => Sys2Proof.Machine.execLengthWordReadCompletion s
  | .stepReadCompletion => Sys2Proof.Machine.execStepReadCompletion s
  | .programReadCompletion => Sys2Proof.Machine.execProgramReadCompletion s
  | .sweepStateReadCompletion => Sys2Proof.Machine.execSweepStateReadCompletion s
  | .cellReadCompletion => Sys2Proof.Machine.execCellReadCompletion s
  | .cellCompletionWrite => Sys2Proof.Machine.execCellCompletionWrite s
  | .recallRequest => Sys2Proof.Machine.execRecallRequest s
  | .captureRequest => Sys2Proof.Machine.execCaptureRequest s
  | .cancelRequest => Sys2Proof.Machine.execCancelRequest s
  | .tuttiRequest => Sys2Proof.Machine.execTuttiRequest s
  | .undoRequest => Sys2Proof.Machine.execUndoRequest s
  | .stopSetRequest => Sys2Proof.Machine.execStopSetRequest s
  | .selectLevel => Sys2Proof.Machine.execSelectLevel s
  | .lockLevel => Sys2Proof.Machine.execLockLevel s
  | .seqSetRequest => Sys2Proof.Machine.execSeqSetRequest s
  | .seqStep => Sys2Proof.Machine.execSeqStep s
  | .crescProgram => Sys2Proof.Machine.execCrescProgram s
  | .crescCalibrate => Sys2Proof.Machine.execCrescCalibrate s
  | .captureSetup => Sys2Proof.Machine.execCaptureSetup s
  | .clearFaults => Sys2Proof.Machine.execClearFaults s
  | .clearCounters => Sys2Proof.Machine.execClearCounters s
  | .reload => Sys2Proof.Machine.execReload s
  | .consumedCountReadCompletion => Sys2Proof.Machine.execConsumedCountReadCompletion s
  | .journalEntryWriteCompletion => Sys2Proof.Machine.execJournalEntryWriteCompletion s
  | .writtenCountWriteCompletion => Sys2Proof.Machine.execWrittenCountWriteCompletion s
  | .lostCountWriteCompletion => Sys2Proof.Machine.execLostCountWriteCompletion s
  | .imageMirrorUpdate => Sys2Proof.Machine.execImageMirrorUpdate s
  | .crescendoMirrorUpdate => Sys2Proof.Machine.execCrescendoMirrorUpdate s
  | .motionMirrorUpdate => Sys2Proof.Machine.execMotionMirrorUpdate s
  | .linkMirrorUpdate => Sys2Proof.Machine.execLinkMirrorUpdate s
  | .errorReportWriteCompletion => Sys2Proof.Machine.execErrorReportWriteCompletion s
  | .journalHeaderClearWriteCompletion => Sys2Proof.Machine.execJournalHeaderClearWriteCompletion s
  | .consoleProcessorWrite addr bytes => Sys2Proof.Machine.execConsoleProcessorWrite addr bytes s

end Sys2Proof.Machine
end

