-- ==== Sys2Proof/Machine/Step.lean ====
section
/-! DEFINITION. One step: the command at the front of the queue, or, where none waits, the passing of time. -/

namespace Sys2Proof.Machine

/-- Some timed event is due: the console clock stands until its command has taken it (log entry 6). -/
def State.eventDue (s : State) : Bool := s.dueTimes.any (fun t => ahead s.clock t == 0)

/-- What happens while no command waits (DESIGN CHOICE, log entry 6): the memory port serves one access of one byte
(R158), or, where none waits, the console clock advances one millisecond, but not past an event that is due. While
RESET# is low nothing happens (R155). -/
def tick (s : State) : State :=
  if s.inReset then s
  else match serveNext s with
    | some s' => s'
    | none => if s.eventDue then s else { s with clock := s.clock + 1 }

/-- One step: the command at the front of the queue is taken and has its effect. -/
def step (s : State) : Host.Outcome State Fault Refusal :=
  match s.pending with
  | [] => .next (tick s)
  | c :: rest => exec c { s with pending := rest }

/-- The command that a word of the table's bits spells, put at the front of the queue; the table gives no row any
bits, so the state is unchanged. -/
def State.withFetchWord (s : State) (nbits w : Nat) : State :=
  match decodeTableWord nbits w with
  | some c => { s with pending := c :: s.pending }
  | none => s

end Sys2Proof.Machine
end

