-- ==== Sys2Proof/Safety.lean ====
section
/-! DEFINITION. The terms in which claims speak of the machine: what of a state is visible beyond the bookkeeping of
the mirror updates, and the invariants of the whole part. -/

namespace Sys2Proof.Machine

/-! ### What a command changes beyond its mirrors -/

/-- A state without what the course of the mirror updates keeps for itself (R36, R83, R116, R134) and without the
accesses that wait for the memory port. Two states that agree in it agree in every value of every block, in every
register and in every byte of console memory. -/
def State.visible (s : State) : State :=
  { s with
    port := {}
    ru := { s.ru with mirror := { shadow := {} } }
    cu := { s.cu with mirror := { shadow := {} } }
    ms := { s.ms with declared := false, showing := false, mirror := { shadow := {} } }
    lc := { s.lc with changed := false, showing := false, mirror := { shadow := [] } } }

/-- Console memory at every address but these. -/
def sameOutside (before after : Memory) (inside : Nat → Prop) : Prop :=
  ∀ a, ¬ inside a → after.read a = before.read a

/-- The address an access writes, if it writes one. -/
def Access.writes (a : Access) (addr : Nat) : Bool :=
  match a with
  | .read _ => false
  | .write _ k _ => k == addr

/-- Some access that waits for the port writes this address. -/
def Port.mayWrite (p : Port) (addr : Nat) : Prop := ∃ b, ∃ a ∈ (p.get b).queue, a.writes addr = true

/-- Some access that another block waits with writes this address. -/
def Port.othersMayWrite (p : Port) (b : Block) (addr : Nat) : Prop :=
  ∃ c, c ≠ b ∧ ∃ a ∈ (p.get c).queue, a.writes addr = true

/-- The port serves up to `n` accesses. -/
def serveTimes : Nat → State → State
  | 0, s => s
  | n + 1, s =>
    match serveNext s with
    | some s' => serveTimes n s'
    | none => s

/-! ### Which fields two states agree in -/

/-- The fields of the state. -/
inductive Part where
  | inReset | part | run | attnEn | cause | mask | readData | clock | clockZeroed | mem | port | dl | ce | sq | cu | cs | ru | ms | lc | rs | jw | line | pending
  deriving DecidableEq

/-- Two states agree in a field. -/
def agree (p : Part) (s t : State) : Prop :=
  match p with
  | .inReset => s.inReset = t.inReset
  | .part => s.part = t.part
  | .run => s.run = t.run
  | .attnEn => s.attnEn = t.attnEn
  | .cause => s.cause = t.cause
  | .mask => s.mask = t.mask
  | .readData => s.readData = t.readData
  | .clock => s.clock = t.clock
  | .clockZeroed => s.clockZeroed = t.clockZeroed
  | .mem => s.mem = t.mem
  | .port => s.port = t.port
  | .dl => s.dl = t.dl
  | .ce => s.ce = t.ce
  | .sq => s.sq = t.sq
  | .cu => s.cu = t.cu
  | .cs => s.cs = t.cs
  | .ru => s.ru = t.ru
  | .ms => s.ms = t.ms
  | .lc => s.lc = t.lc
  | .rs => s.rs = t.rs
  | .jw => s.jw = t.jw
  | .line => s.line = t.line
  | .pending => s.pending = t.pending

/-- Two states agree in every field but these. -/
def Same (ps : List Part) (s t : State) : Prop := ∀ p, p ∉ ps → agree p s t

/-- The Motion Scheduler and the Link Controller have changed by queued and dispatched moves alone (R101, R103). -/
def OnlyMovesQueued (s t : State) : Prop :=
  t.ms.fault = s.ms.fault ∧ t.ms.unreachable = s.ms.unreachable ∧ t.ms.adopted = s.ms.adopted ∧
  (∀ i : Fin 16, ({ t.lc.boards[i] with outgoing := [] } : BoardLink) = { s.lc.boards[i] with outgoing := [] }) ∧
  t.lc.inRound = s.lc.inRound ∧ t.lc.round = s.lc.round ∧ t.lc.due = s.lc.due ∧ t.lc.exchange = s.lc.exchange ∧
  t.lc.draining = s.lc.draining ∧ t.lc.clears = s.lc.clears

/-- The command that takes an action of a kind from the head of the queue (R45). -/
def ActionKind.command : ActionKind → Instr
  | .recall _ _ => .recall
  | .capture _ _ => .capture
  | .cancel => .cancel
  | .tutti _ => .tutti
  | .tuttiCapture => .tuttiCapture
  | .reverse _ => .reverse
  | .stopSet _ _ => .stopSet
  | .undo => .undo

/-- The command that takes a step request of a kind from the head of the list (R62). -/
def StepKind.command : StepKind → Instr
  | .next => .next
  | .prev => .prev
  | .set _ => .seqSet

/-- The completion list with the result of a request cell, if there is one, at its tail (R140). -/
def State.resultsWith (s : State) (cell : Option Nat) (result : RequestResult) (value : Nat) : List Completion :=
  s.rs.completions ++ cell.toList.map (fun c => ⟨c, result, value, s.clock⟩)

/-- The Request Scanner once its sweep has moved on from a cell: to the next, to cell 0 where a trigger is pending, or
to its end (R137). -/
def Requests.movedOn (r : Requests) (cell : Nat) : Requests :=
  if cell + 1 < 32 then { r with sweep := .stateRead (cell + 1) }
  else if r.scanPending then { r with sweep := .stateRead 0, scanPending := false }
  else { r with sweep := .idle }

/-- The writes of mirrors of one byte each, an address and a value. -/
def mirrorBytes (mirrors : List (Nat × Nat)) : List Access :=
  mirrors.map (fun x => .write .mirror x.1 (BitVec.ofNat 8 x.2))

/-- A block waits with a read of `n` bytes, behind what it waited with and the writes of these mirrors. -/
def readsNow (s t : State) (b : Block) (mirrors : List (Nat × Nat)) (a n : Nat) : Prop :=
  t.port.get b = ⟨(s.port.get b).queue ++ mirrorBytes mirrors ++ readAccesses a n, []⟩

/-- A block waits with these accesses, behind what it waited with and the writes of these mirrors. -/
def waitsNow (s t : State) (b : Block) (mirrors : List (Nat × Nat)) (accesses : List Access) : Prop :=
  (t.port.get b).queue = (s.port.get b).queue ++ mirrorBytes mirrors ++ accesses

/-- The mirror of the undo depth after a push onto a stack of `n` snapshots: it is written where the depth changes
(R57). -/
def pushedDepth (n : Nat) : List (Nat × Nat) := if n = 4 then [] else [(0x0101A4, min (n + 1) 4)]

/-- What accesses that nothing comes between leave in memory. -/
def Memory.after (m : Memory) : List Access → Memory
  | [] => m
  | .read _ :: as => Memory.after m as
  | .write _ a v :: as => Memory.after (m.write a v) as

/-- The Journal Writer with nothing in hand takes the head of its list (R147). -/
def Journal.next (j : Journal) : Journal :=
  match j.list with
  | [] => { j with phase := .idle }
  | e :: rest => { j with phase := .countRead e, list := rest }

/-- The writes of a mirror update, each row of the list saying whether the mirror differs from what the previous update
wrote, its address and its bytes; the full update writes every row (R36, R157). -/
def updateWrites (full : Bool) : List (Bool × Nat × List Byte) → List Access
  | [] => []
  | (differs, a, bytes) :: rows =>
    (if full || differs then writeAccesses .mirror a bytes else []) ++ updateWrites full rows

/-! ### Mirror groups -/

/-- The count that the next update of a group shows while it is in progress (R36; log entry 5 for an odd count). -/
def nextOdd (n : BitVec 32) : BitVec 32 := if n.getLsbD 0 then n + 2 else n + 1

/-- From `m` to `m'` a command has marked a group stale, whose values are `v` at its end: an update in progress goes on
with the group stale, and otherwise one has begun with these values (R36). -/
def Mirror.isMarked {V : Type} (m m' : Mirror V) (v : V) : Prop :=
  (m.updating = true → m.full = false → m' = { m with stale := true }) ∧
  (m.updating = false ∨ m.full = true → m' = ⟨nextOdd m.count, false, true, false, v⟩)

/-- A group of which no update was in progress is as it was, or an update has begun with the values `v` of the moment:
its block waits, last, with the odd count, the mirrors that differ from what the update before wrote (every mirror at an
entry to LOADING) and the even count (R36). -/
def Mirror.standsOrBegins {V : Type} (m m' : Mirror V) (v : V) (loading : Prop) (countAddr : Nat)
    (writes : Bool → V → V → List Access) (queue : List Access) : Prop :=
  m.updating = false →
    m' = m ∨
    (m' = ⟨nextOdd m.count, false, true, false, v⟩ ∧ ∃ full before, (full = true → loading) ∧
      queue = before ++ writeAccesses .mirror countAddr (bytesLE 4 m'.count.toNat) ++ writes full m.shadow v ++
        writeAccesses .mirror countAddr (bytesLE 4 (m'.count + 1).toNat))

/-- The full update of an entry to LOADING has begun in every group: it takes the values at the entry's end, and the
group's block waits with the odd count, every mirror and the unused bytes, and the even count alone; the accesses of an
update in progress are abandoned. The link group's shows a change of board state (R36, R84, R118, R134, R135). -/
def FullUpdateBegun (s t : State) : Prop :=
  t.ru.mirror = ⟨nextOdd s.ru.mirror.count, false, true, false, t.imageValues⟩ ∧
  (t.port.get .ru).queue = writeAccesses .mirror 0x010000 (bytesLE 4 t.ru.mirror.count.toNat) ++
    imageWrites true {} t.imageValues ++ writeAccesses .mirror 0x010000 (bytesLE 4 (t.ru.mirror.count + 1).toNat) ∧
  t.cu.mirror = ⟨nextOdd s.cu.mirror.count, false, true, false, t.crescendoValues⟩ ∧
  (t.port.get .cu).queue = writeAccesses .mirror 0x010180 (bytesLE 4 t.cu.mirror.count.toNat) ++
    crescendoWrites true {} t.crescendoValues ++
    writeAccesses .mirror 0x010180 (bytesLE 4 (t.cu.mirror.count + 1).toNat) ∧
  t.ms.mirror = ⟨nextOdd s.ms.mirror.count, false, true, false, t.motionValues⟩ ∧
  (t.port.get .ms).queue = writeAccesses .mirror 0x010100 (bytesLE 4 t.ms.mirror.count.toNat) ++
    motionWrites true {} t.motionValues ++ writeAccesses .mirror 0x010100 (bytesLE 4 (t.ms.mirror.count + 1).toNat) ∧
  t.lc.mirror = ⟨nextOdd s.lc.mirror.count, false, true, false, t.linkValues⟩ ∧ t.lc.showing = true ∧
  (t.port.get .lc).queue = writeAccesses .mirror 0x010200 (bytesLE 4 t.lc.mirror.count.toNat) ++
    linkWrites true [] 0 t.linkValues ++ writeAccesses .mirror 0x010200 (bytesLE 4 (t.lc.mirror.count + 1).toNat)

/-- The record for BRD of a board's change: for the next update where one is in progress, otherwise for the update that
begins with the change (R134). While RESET# is low no update begins. -/
def BoardChangeRecorded (s t : State) : Prop :=
  if s.inReset = true ∨ (s.lc.mirror.updating = true ∧ s.lc.mirror.full = false) then t.lc.changed = true
  else t.lc.showing = true

/-- The record for FLT of a declared fault, likewise (R110, R117). -/
def FaultRecorded (s t : State) : Prop :=
  if s.inReset = true ∨ (s.ms.mirror.updating = true ∧ s.ms.mirror.full = false) then t.ms.declared = true
  else t.ms.showing = true

/-! ### Slots and loads -/

/-- A slot is being written at an address: the accesses still to be made wait with the engine in their order, those made
have left their bytes, and no other access that waits writes any of its 56 bytes (R41). -/
def SlotBeingWritten (s : State) (a : Nat) (scope : Byte) (stamp : BitVec 32) (image : StopImage) : Prop :=
  ∃ made left, slotAccesses a scope stamp image = made ++ left ∧
    (s.port.get .ce).queue.filter (Access.isFor .slot) = left ∧
    (∀ k v, Access.write .slot k v ∈ made → s.mem.read k = v) ∧
    ∀ k, a ≤ k → k < a + 56 → ¬ s.port.othersMayWrite .ce k ∧
      ∀ x ∈ (s.port.get .ce).queue, x.isFor .slot = false → x.writes k = false

/-- What memory holds once that slot has been written: a sound slot of this scope, image and stamp, and every byte that
no waiting access writes as it stood (R40, R41). -/
def SlotWritten (s t : State) (a : Nat) (scope : Byte) (stamp : BitVec 32) (image : StopImage) : Prop :=
  judgeSlot (t.mem.readBytes a 56) = .sound scope image ∧ t.mem.readBytes (a + 4) 4 = bytesLE 4 stamp.toNat ∧
    ∀ k, ¬ s.port.mayWrite k → t.mem.read k = s.mem.read k

/-! ### Exchanges -/

/-- The exchange with a board is over, and the Link Controller holds these values for the board. -/
def State.exchanged (s : State) (i : Fin 16) (b : BoardLink) : State :=
  { s with lc := { s.lc with exchange := .idle, boards := s.lc.boards.set i b i.isLt } }

/-- The journal after the BOARD entry of a change of state (R132). -/
def State.withBoardEntry (s : State) (i : Fin 16) (old new : BoardState) : State :=
  { s with jw := (journal ⟨.board, .none, s.ce.level, 0xFF, i.val + 1, new.code + 256 * old.code, 0⟩ s).jw }

/-- What the blocks that depend on a board do at its change to ABSENT or MISMATCH (R113, R70, R132). -/
def State.losing (s : State) (i : Fin 16) : State :=
  let s₁ := if (s.desc.board i).kind = .jamb then loseBoard i s else s
  if (s.desc.board i).kind = .jamb ∧ (s.desc.board i).shoe = true then loseShoe s₁ else s₁

/-- A POLL request to a board has been formed and its sending begun (R24, R25, R127, R130): the open frame resent, or a
new one with the toggle and the whole outgoing list, its lamp or chest bits from the images as they stand. -/
def PollSent (s t : State) (i : Fin 16) : Prop :=
  ∃ toggle commands,
    ((s.lc.boards[i].openFrame = some ⟨toggle, commands⟩) ∨
      (s.lc.boards[i].openFrame = none ∧ toggle = s.lc.boards[i].toggle ∧ commands = s.lc.boards[i].outgoing)) ∧
    t.lc.boards = s.lc.boards.set i { s.lc.boards[i] with openFrame := some ⟨toggle, commands⟩ } i.isLt ∧
    t.lc.exchange = .sending i
      (if (s.desc.board i).kind = .chest then
        .pollChest toggle (chestBits (i.val + 1) (s.desc.board i).chestBits s.ru.si 0 s.desc.stops)
      else .pollJamb toggle commands (lampBits (i.val + 1) (s.desc.board i).lamps s.ru.ri 0 s.desc.stops))

/-- A board that a polling round of this number sends no request (R124). -/
def State.silent (s : State) (round : BitVec 4) (i : Fin 16) : Prop :=
  (s.desc.board i).kind = .none ∨
    (round ≠ 0 ∧ s.lc.boards[i].state ≠ .present ∧ s.lc.boards[i].state ≠ .suspect)

/-- The frames that an ended exchange leaves on the line: a request that was being sent (R135). -/
def Exchange.unsent : Exchange → List (Fin 16 × LinkFrame)
  | .sending i frame => [(i, frame)]
  | .idle | .window _ _ => []

/-! ### The entry to LOADING -/

/-- From `s` to `t` the part has entered LOADING for a cause: what every block but the Request Scanner holds, and the
accesses that the loader, the engine, the Sequencer, the owners of the mirror groups and, at the first entry since a
hard reset, the Journal Writer wait with (R1, R36, R38, R59, R61, R68, R84, R97, R118, R135, R149). -/
def LoadingEntered (s t : State) (cause : LoadCause) : Prop :=
  t.part = .loading ∧ t.hasCause .state = true ∧
  t.ru.ri = 0 ∧ t.cs.ci = 0 ∧ t.ru.si = 0 ∧ t.ce.ti = 0 ∧ t.ru.tutti = false ∧ t.cs = {} ∧
  t.ce = { s.ce with queue := [], job := none, undo := [], ti := 0, locks := [] } ∧
  t.port.get .ce = ⟨(s.port.get .ce).queue.filter (Access.isFor .mirror) ++ mirrorBytes
    [(0x0101A0, s.ce.level), (0x0101A1, s.ce.captureEnable.toNat), (0x0101A2, s.ce.captureScope.toNat), (0x0101A3, 0),
      (0x0101A4, 0), (0x0101A5, 0)], []⟩ ∧
  t.sq = { s.sq with list := [], job := none } ∧
  t.port.get .sq = ⟨(s.port.get .sq).queue.filter (Access.isFor .mirror) ++
    writeAccesses .mirror 0x0101B0 (bytesLE 2 (s.sq.position.getD 0xFFFF)) ++ mirrorBytes [(0x0101B2, 0)], []⟩ ∧
  t.visible.cu = { s.visible.cu with signal := .none, q := 0, stage := 0, images := [], loading := none } ∧
  t.visible.ms = ({} : Motion) ∧
  (∀ i : Fin 16, t.lc.boards[i] = {}) ∧ t.lc.exchange = .idle ∧ t.lc.inRound = false ∧ t.lc.round = 0 ∧
  t.lc.clears = [] ∧ t.lc.draining = s.lc.draining ++ s.lc.exchange.unsent ∧
  t.dl = { s.dl with
    valid := false, copy := {}, errorCode := 0, recordClass := 0, recordIndex := 0
    loadCause := some cause, phase := .reading {} } ∧
  t.port.get .dl = ⟨mirrorBytes [(0x0101C0, 0), (0x0101C1, 0), (0x0101C2, 0), (0x0101C3, 0)] ++
    readAccesses 0x000000 2, []⟩ ∧
  t.jw = (if s.jw.cleared then s.jw else { s.jw with phase := .clearing, cleared := true }) ∧
  t.port.get .jw = (if s.jw.cleared then s.port.get .jw
    else ⟨(s.port.get .jw).queue ++ writeAccesses .clear 0x011400 [0, 0, 0, 0, 0, 0, 0, 0] ++
      writeAccesses .clear 0x0101C4 [0, 0], (s.port.get .jw).buf⟩) ∧
  (s.inReset = false → FullUpdateBegun s t) ∧ t.mem = s.mem ∧ t.clock = s.clock ∧ t.line = s.line

/-! ### Contacts -/

/-- A contact after samples, oldest first (R87). -/
def debounceRun (role : ContactRole) : Contact → List Bool → Contact
  | c, [] => c
  | c, x :: xs => debounceRun role (debounce role c x).contact xs

/-! ### What a description and a state say of one stop -/

/-- The stop is MOVED (R6). -/
def Desc.isMoved (d : Desc) (n : Nat) : Bool := (d.stops[n]?).any (fun r => r.kind == .moved)

/-- The stop is cancel-exempt (R6). -/
def Desc.isExempt (d : Desc) (n : Nat) : Bool := (d.stops[n]?).any (fun r => r.exempt)

/-- The stop's division is in a scope (R48). -/
def Desc.inScope (d : Desc) (scope : Byte) (n : Nat) : Bool := (d.stops[n]?).any (fun r => scope.getLsbD r.division)

/-- The stop is faulted or unreachable. -/
def State.isHeld (s : State) (n : Nat) : Bool := s.ms.fault.getLsbD n || s.ms.unreachable.getLsbD n

/-- The moves enqueued: the MOVED stops whose RI bit changed between two states (R23, R46). -/
def movesBetween (s t : State) : Nat :=
  ((List.range 384).filter (fun n => s.desc.isMoved n && (s.ru.ri.getLsbD n != t.ru.ri.getLsbD n))).length

/-- The Motion Scheduler has been handed, as one event, the MOVED stops whose RI bit differs between `s` and `t`, and
has made of them what `enqueueMoves` does on `s` with the RI of `t` (R23, step 4): queue, sums and outgoing lists. -/
def MovesHandedOver (s t : State) : Prop :=
  ∀ moved : StopImage,
    (∀ n, moved.getLsbD n = (s.desc.isMoved n && (s.ru.ri.getLsbD n != t.ru.ri.getLsbD n))) →
    t.visible.ms = (enqueueMoves moved { s with ru := t.ru }).visible.ms ∧
    t.visible.lc = (enqueueMoves moved { s with ru := t.ru }).visible.lc

/-- The part state after a CONTROL write of these RESET and RUN bits, by the table of R154. -/
def partAfterControl (p : PartState) (reset run : Bool) : PartState :=
  match run, reset with
  | true, true => .loading
  | true, false =>
    match p with
    | .halted | .descError => .loading
    | .loading => .loading
    | .census => .census
    | .running => .running
  | false, _ => .halted

/-! ### Invariants -/

/-- R22: SI is the union of RI, CRI and, while the tutti flag is on, TI. -/
def SpeakingIsUnion (s : State) : Prop :=
  ∀ n, s.ru.si.getLsbD n = (s.ru.ri.getLsbD n || s.cri.getLsbD n || (s.ru.tutti && s.ce.ti.getLsbD n))

/-- R44, R57, R62, R147: the lists that hold at most 8, 4, 4 and 16, and the lost count that stops at 65,535. -/
def ListsBounded (s : State) : Prop :=
  s.ce.queue.length ≤ 8 ∧ s.ce.undo.length ≤ 4 ∧ s.sq.list.length ≤ 4 ∧ s.jw.list.length ≤ 16 ∧ s.jw.lost ≤ 65535

/-- R45, R62: in RUNNING neither the Combination Engine nor the Sequencer is IDLE while a record waits for it. -/
def NoneWaitsIdle (s : State) : Prop :=
  s.part = .running → (s.ce.job = none → s.ce.queue = []) ∧ (s.sq.job = none → s.sq.list = [])

/-- No full update is still to begin, and a group that is stale has an update in progress, at whose end the next begins
(R36). -/
def Mirror.settled {V : Type} (m : Mirror V) : Prop := m.full = false ∧ (m.stale = true → m.updating = true)

/-- R36, R83, R116, R134: no group stays stale without an update in progress, and from the first entry to LOADING after
a hard reset a group that is not stale has the values that its last update took, so that every change of a value marks
its group (F alone of the crescendo values marks nothing, R83). In HALTED the image mirrors stay as they are (R38). A
load or its report is in hand in LOADING alone (R16). -/
def MirrorsFollow (s : State) : Prop :=
  (s.dl.phase ≠ .idle → s.part = .loading) ∧
  s.ru.mirror.settled ∧ s.cu.mirror.settled ∧ s.ms.mirror.settled ∧ s.lc.mirror.settled ∧
  (s.dl.loadCause ≠ none →
    (s.part ≠ .halted → s.ru.mirror.stale = false → s.ru.mirror.shadow = s.imageValues) ∧
    (s.cu.mirror.stale = false →
      ({ s.cu.mirror.shadow with f := 0 } : CrescendoValues) = { s.crescendoValues with f := 0 }) ∧
    (s.ms.mirror.stale = false → s.ms.mirror.shadow = s.motionValues) ∧
    (s.lc.mirror.stale = false → s.lc.mirror.shadow = s.linkValues))

/-- R98: the motion queue holds at most one entry per stop. -/
def OneEntryPerStop (s : State) : Prop := (s.ms.queue.map MotionEntry.stop).Nodup

/-- The MOVED stops of a description have a class of at least 1 (R7). -/
def Desc.ClassesPositive (d : Desc) : Prop := ∀ r ∈ d.stops, r.kind = .moved → 1 ≤ r.currentClass

/-- While a load reads its records, no other block has work in flight (R1), and the copy as far as it has passed has
classes of at least 1. -/
def LoadQuiet (s : State) : Prop :=
  ∀ load, s.dl.phase = .reading load →
    s.part = .loading ∧ s.ce.job = none ∧ s.lc.exchange = .idle ∧ s.rs.sweep = .idle ∧ s.ms.queue = [] ∧
      load.copy.ClassesPositive

/-- R102: the committed current is the sum of the classes of the entries that are SENT or PULSING and the energised
count their number; the current exceeds the budget only where exactly one entry is energised; at most 48 are; at most
8 commands are outstanding for any one board. -/
def BudgetKept (s : State) : Prop :=
  s.ms.committed = committedOf s.desc s.ms.queue ∧
  s.ms.energised = energisedOf s.ms.queue ∧
  (s.ms.committed ≤ s.desc.header.budget ∨ s.ms.energised = 1) ∧
  s.ms.energised ≤ 48 ∧
  ∀ i : Fin 16, s.lc.boards[i].outgoing.length ≤ 8

/-- What `BudgetKept` rests on: one entry per stop, classes of at least 1, and quiet loads. -/
def MotionSound (s : State) : Prop :=
  BudgetKept s ∧ OneEntryPerStop s ∧ LoadQuiet s ∧ s.desc.ClassesPositive ∧
    ∀ e ∈ s.ms.queue, 1 ≤ s.desc.currentClass e.stop

/-- R155: while RESET# is low, every register has its hard-reset value and no block has anything in hand; console
memory and the boards' own side of the link are the only things that stand as they stood. -/
def HeldInReset (s : State) : Prop :=
  s.inReset = true →
    s = { State.reset with inReset := true, mem := s.mem, line := s.line, pending := s.pending }

/-- R72, R81: once a load has succeeded the calibration ends span at least 256; the copy of a load past its header
has such ends (R2), and a load cause other than HARD is recorded only after a load has succeeded (R1). -/
def SpanKept (s : State) : Prop :=
  (s.dl.loadedOnce = true → s.cu.lo + 256 ≤ s.cu.hi) ∧
  (∀ load, s.dl.phase = .reading load → load.place = .header ∨ load.copy.header.lo + 256 ≤ load.copy.header.hi) ∧
  (s.dl.loadCause = some .soft → s.dl.loadedOnce = true)

/-- R36, R83, R116, R134: a count is odd while its update is in progress, and the counts of the crescendo, motion and
link mirrors are even while none is. -/
def CountsGuard (s : State) : Prop :=
  (s.ru.mirror.updating = true → s.ru.mirror.count.getLsbD 0 = true) ∧
  s.cu.mirror.count.getLsbD 0 = s.cu.mirror.updating ∧
  s.ms.mirror.count.getLsbD 0 = s.ms.mirror.updating ∧
  s.lc.mirror.count.getLsbD 0 = s.lc.mirror.updating

end Sys2Proof.Machine
end

