-- ==== Sys2Proof/Certificates/Slice0/Obligations.lean ====
section
/-! DEFINITION. The statements for the provers. Each docstring names the rule of spec/ that its statement rests on.
`t.visible` is a state without the bookkeeping of the mirror updates and without waiting accesses (Safety.lean);
`Same ps s t` says that two states agree in every field but those of `ps`. -/

section
open Sys2Proof Sys2Proof.Machine

/-! ### Steps, the memory port and console memory -/

/-- A step takes the command at the front of the queue. -/
def Obligations.StepRunsFrontCommand : Prop :=
  ∀ (c : Instr) (rest : List Instr) (s : State),
    step { s with pending := c :: rest } = exec c { s with pending := rest }

/-- On an empty queue the port serves one access, or the console clock advances where no access waits and no event is
due; while RESET# is low nothing happens (the model's choice, log entry 6; R158, R155). -/
def Obligations.EmptyQueueServesPortOrClock : Prop :=
  ∀ s : State, s.pending = [] →
    (s.inReset = true → step s = .next s) ∧
    (s.inReset = false →
      (∀ b, s.port.granted = some b → step s = .next (serveBlock b s)) ∧
      (s.port.granted = none →
        (s.eventDue = true → step s = .next s) ∧
        (s.eventDue = false → step s = .next { s with clock := s.clock + 1 })))

/-- R158: the port grants the first waiting block in rotation, beginning after the block it served last, and none only
where no block waits; a waiting block is granted the port after at most 8 accesses, one of each other block. -/
def Obligations.PortServesInRotation : Prop :=
  (∀ p : Port,
    (∀ b, p.granted = some b →
      (p.get b).queue ≠ [] ∧
        ∃ earlier later, p.served.rotation = earlier ++ b :: later ∧ ∀ c ∈ earlier, (p.get c).queue = []) ∧
    (p.granted = none ↔ ∀ b, (p.get b).queue = [])) ∧
  ∀ (s : State) (b : Block), (s.port.get b).queue ≠ [] →
    ∃ k ≤ 8, (serveTimes k s).port.granted = some b ∧ (serveTimes k s).port.get b = s.port.get b

/-- R157: a completed read has taken the bytes of its field in ascending address. The accesses the block waits with
before the read are writes; nobody writes the field meanwhile. -/
def Obligations.ReadTakesItsBytes : Prop :=
  ∀ (s : State) (b : Block) (a n : Nat) (before after : List Access),
    s.mem.wf = true →
    (s.port.get b).queue = before ++ readAccesses a n ++ after → (s.port.get b).buf = [] →
    (∀ x ∈ before, x.isRead = false) → (∀ x ∈ after, x.isRead = false) →
    (∀ k, a ≤ k → k < a + n → ¬ s.port.othersMayWrite b k ∧ ∀ x ∈ before, x.writes k = false) →
    (finishRead b s).readBytes b = s.mem.readBytes a n ∧ (finishRead b s).mem.readBytes a n = s.mem.readBytes a n ∧
      ∀ k, ¬ s.port.mayWrite k → (finishRead b s).mem.read k = s.mem.read k

/-- R157: a completed write has stored its bytes in ascending address, and no byte that no waiting access writes has
changed. -/
def Obligations.WriteStoresItsBytes : Prop :=
  ∀ (s : State) (b : Block) (p : Purpose) (a : Nat) (bytes : List Byte) (before after : List Access),
    s.mem.wf = true →
    (s.port.get b).queue = before ++ writeAccesses p a bytes ++ after →
    (∀ x ∈ before, x.isFor p = false) → (∀ x ∈ after, x.isFor p = false) →
    (∀ k, a ≤ k → k < a + bytes.length → ¬ s.port.othersMayWrite b k) →
    (finishWrite b p s).mem.readBytes a bytes.length = bytes ∧
      (((finishWrite b p s).port.get b).writeDone p) = true ∧
      ∀ k, ¬ s.port.mayWrite k → (finishWrite b p s).mem.read k = s.mem.read k

/-- Every step keeps the canonical form of console memory: addresses rise strictly, and no byte that reads as at
power-on is listed (the model's form; log entry 1). -/
def Obligations.MemoryStaysCanonical : Prop :=
  ∀ s t : State, s.mem.wf = true → step s = .next t → t.mem.wf = true

/-- R136, 00_scope.md: the console processor's write stores its bytes and changes nothing else. That a write beyond the
2 MiB stops with a fault is the model's choice (DESIGN CHOICE, log entry 31). -/
def Obligations.ConsoleProcessorWrites : Prop :=
  ∀ (addr : BitVec 21) (bytes : List Byte) (s : State), s.mem.wf = true →
    (addr.toNat + bytes.length ≤ 2097152 →
      ∃ t, exec (.consoleProcessorWrite addr bytes) s = .next t ∧
        t.mem.readBytes addr.toNat bytes.length = bytes ∧
        (∀ k, k < addr.toNat ∨ addr.toNat + bytes.length ≤ k → t.mem.read k = s.mem.read k) ∧
        Same [.mem] s.visible t.visible) ∧
    (2097152 < addr.toNat + bytes.length →
      exec (.consoleProcessorWrite addr bytes) s = .fault (.outsideConsoleMemory 2097152))

/-- The state after reset meets every invariant that the statements below keep. -/
def Obligations.ResetMeetsInvariants : Prop :=
  State.reset.mem.wf = true ∧ SpeakingIsUnion State.reset ∧ ListsBounded State.reset ∧ MotionSound State.reset ∧
    HeldInReset State.reset ∧ SpanKept State.reset ∧ CountsGuard State.reset ∧ NoneWaitsIdle State.reset ∧
    MirrorsFollow State.reset

/-! ### Hard reset, registers and part states -/

/-- R155: HARD_RESET gives every block its hard-reset values, writes no byte of console memory and leaves the boards as
they stand; RESET_RELEASE then leaves the part HALTED with RUN, ATTN_EN, MASK, CAUSE and the console clock 0. -/
def Obligations.HardResetAndRelease : Prop :=
  (∀ s : State, exec .hardReset s = .next { State.reset with
      inReset := true, mem := s.mem, line := s.line, pending := s.pending }) ∧
  (∀ s u : State, exec .hardReset s = .next u →
    ∃ t, exec .resetRelease u = .next t ∧ t.inReset = false ∧ t.part = .halted ∧ t.run = false ∧ t.attnEn = false ∧
      t.attnLow = false ∧ t.mask = 0 ∧ t.cause = 0 ∧ t.clock = 0 ∧ t.clockZeroed = false ∧
      t.dl.loadedOnce = false ∧ t.mem = s.mem) ∧
  (∀ s : State, s.inReset = true → ∃ t, exec .resetRelease s = .next t ∧
    t.visible = ({ s with inReset := false } : State).visible)

/-- R155: while RESET# is low every register has its hard-reset value and no block has anything in hand, whatever
commands come. -/
def Obligations.ResetLineHoldsPart : Prop := ∀ s t : State, HeldInReset s → step s = .next t → HeldInReset t

/-- R154: a CONTROL write sets RUN and ATTN_EN, has the effect of the table on the part state, raises STATE at each
change and at each entry to LOADING, raises nothing where the state stands, and clears no flag. -/
def Obligations.ControlWriteChangesState : Prop :=
  ∀ (s : State) (data : BitVec 16), s.inReset = false →
    ∀ c ∈ [Instr.runSet data, .runClear data, .reset data, .attnEn data],
      ∃ t, exec c s = .next t ∧
        t.part = partAfterControl s.part (data.getLsbD 1) (data.getLsbD 0) ∧
        t.run = data.getLsbD 0 ∧ t.attnEn = data.getLsbD 2 ∧ t.mask = s.mask ∧ t.clock = s.clock ∧
        (∀ f, s.hasCause f = true → t.hasCause f = true) ∧
        (t.part ≠ s.part ∨ (data.getLsbD 0 = true ∧ data.getLsbD 1 = true) → t.hasCause .state = true) ∧
        (t.part = s.part → ¬ (data.getLsbD 0 = true ∧ data.getLsbD 1 = true) → t.cause = s.cause)

/-- R16, R38, R50, R59, R68, R80, R97, R118, R135, R137, R144, R145: a write of RUN = 0 that leaves LOADING, CENSUS or
RUNNING ends the work in flight and keeps what those rules keep; a request being sent is sent to its end. The engine and
the Sequencer wait with nothing but their mirrors, the engine state's IDLE the last where it changes (R45). The results
that wait and the outstanding table stand, with the cell whose ACCEPTED is written and whose request is not yet handed
on (DEDUCED, log entry 43); but a reload cell that is held is completed ABANDONED, and every result up to
its own is written DONE, before the part is HALTED (log entry 11). In every part state the motion queue is empty after
the write and the motion mirrors are marked stale (before the first entry to LOADING after a hard reset, where no load
cause is recorded, they are not: R118), and an image mirror update in progress is abandoned: it is not made
up for, its mirrors taken as not stale, unless the full update of an entry to LOADING has still to begin (R36; log entry
30). In HALTED and DESC_ERROR nothing else changes but the part state. The count that an update takes from an odd count
is log entry 5. -/
def Obligations.RunClearEndsWork : Prop :=
  (∀ (s : State) (data : BitVec 16) (flags : BitVec 32) (held : List Completion),
    s.inReset = false → data.getLsbD 0 = false →
    (s.part = .loading ∨ s.part = .census ∨ s.part = .running) →
    flags = (match s.rs.sweep with
      | .accepting c _ =>
        if (s.port.get .rs).writeDone .accept then s.rs.outstanding else setBit s.rs.outstanding c false
      | _ => s.rs.outstanding) →
    ∃ t, exec (.runClear data) s = .next t ∧ t.part = .halted ∧ t.hasCause .state = true ∧
      t.ru.ri = s.ru.ri ∧ t.ru.si = s.ru.si ∧ t.ru.tutti = s.ru.tutti ∧ t.cs = s.cs ∧
      t.ce = { s.ce with job := none, locks := [] } ∧ t.sq = { s.sq with job := none } ∧
      t.visible.cu = { s.visible.cu with loading := none } ∧
      t.visible.ms = { s.visible.ms with queue := [], committed := 0, energised := 0 } ∧
      (∀ i : Fin 16, t.lc.boards[i] = { s.lc.boards[i] with outgoing := [], openFrame := none }) ∧
      t.lc.inRound = false ∧ t.lc.exchange = .idle ∧ t.lc.clears = [] ∧
      t.lc.draining = s.lc.draining ++ s.lc.exchange.unsent ∧
      t.rs.sweep = .idle ∧ t.rs.scanPending = false ∧ t.rs.reloadCell = none ∧
      t.dl.phase = .idle ∧ t.dl.valid = s.dl.valid ∧ t.jw = s.jw ∧ t.clock = s.clock ∧ t.line = s.line ∧
      (s.rs.reloadCell = none →
        t.rs.completions = s.rs.completions ∧ t.rs.outstanding = flags ∧ t.mem = s.mem ∧
        t.port.get .rs = ⟨(s.port.get .rs).queue.filter (fun a => !a.isRead && !a.isFor .accept), []⟩ ∧
        t.port.get .ce = ⟨(s.port.get .ce).queue.filter (Access.isFor .mirror) ++
          mirrorBytes (if s.engineState = .idle then [] else [(0x0101A5, 0)]), []⟩ ∧
        t.port.get .sq = ⟨(s.port.get .sq).queue.filter (Access.isFor .mirror), []⟩) ∧
      (∀ c, s.rs.reloadCell = some c → held = s.rs.completions ++ [⟨c, .abandoned, 0, s.clock⟩] →
        t.rs.completions = [] ∧ t.hasCause .req = true ∧
        (∀ k, t.rs.outstanding.getLsbD k = (flags.getLsbD k && !held.any (fun x => x.cell == k))) ∧
        (s.mem.wf = true →
          ((∀ k, 0x011000 + 16 * c ≤ k → k < 0x011000 + 16 * c + 16 → ¬ s.port.othersMayWrite .rs k) →
            t.mem.read (0x011000 + 16 * c) = 3 ∧ t.mem.read (0x011000 + 16 * c + 2) = 9 ∧
            t.mem.readBytes (0x011000 + 16 * c + 8) 4 = [0, 0, 0, 0] ∧
            t.mem.readBytes (0x011000 + 16 * c + 12) 4 = bytesLE 4 s.clock.toNat) ∧
          ∀ k, ¬ s.port.mayWrite k → k ≠ 0x0101A5 →
            (∀ x ∈ held, k < 0x011000 + 16 * x.cell ∨ 0x011000 + 16 * x.cell + 16 ≤ k) →
            t.mem.read k = s.mem.read k))) ∧
  ∀ (s : State) (data : BitVec 16), s.inReset = false → data.getLsbD 0 = false →
    ∃ t, exec (.runClear data) s = .next t ∧
      (s.ru.mirror.full = false →
        t.ru.mirror = { s.ru.mirror with stale := false, updating := false } ∧ t.port.get .ru = {}) ∧
      (s.ru.mirror.full = true → t.ru.mirror = ⟨nextOdd s.ru.mirror.count, false, true, false, t.imageValues⟩) ∧
      (s.dl.loadCause ≠ none → s.ms.mirror.isMarked t.ms.mirror t.motionValues) ∧
      (s.dl.loadCause = none → s.ms.queue = [] → s.ms.committed = 0 → s.ms.energised = 0 → s.part = .halted →
        s.ms.mirror.settled → s.ms.mirror.updating = false →
        t.ms.mirror = s.ms.mirror ∧ t.port.get .ms = s.port.get .ms) ∧
      (s.part = .halted → t.visible = ({ s with
        run := false, attnEn := data.getLsbD 2
        ms := { s.ms with queue := [], committed := 0, energised := 0 } } : State).visible) ∧
      (s.part = .descError →
        t.visible = (raise .state { s with
          part := .halted, run := false, attnEn := data.getLsbD 2
          ms := { s.ms with queue := [], committed := 0, energised := 0 } }).visible)

/-- R1, R38, R59, R61, R68, R84, R97, R118, R135, R145, R149: the values of every block at an entry to LOADING by a
CONTROL write (`LoadingEntered` lists them), the load cause HARD until a load has succeeded and SOFT after, the mirrors
of the engine, the Sequencer and the report with these values, the full updates of the four groups, the read of the
header's first field, and, at the first entry since a hard reset, the zeros that the Journal Writer writes before it
takes an entry. That memory stands where RESET ends the load of a RELOAD, its cell's DONE not yet written, is the
model's choice (DESIGN CHOICE, log entry 41), and so are the emptied copy of the description and the link count, which
is kept (log entry 33), and the count after an abandoned update (log entry 5). That the bytes of a failed load's report
that still wait for the port are dropped, the cleared report in their place, is the model's reading (DEDUCED, log entry
29). -/
def Obligations.LoadingClearsBlocks : Prop :=
  ∀ (s : State) (data : BitVec 16), s.inReset = false → data.getLsbD 0 = true →
    ∀ c, (c = Instr.reset data ∧ data.getLsbD 1 = true) ∨
        (c = Instr.runSet data ∧ (s.part = .halted ∨ s.part = .descError)) →
      ∃ t, exec c s = .next t ∧ LoadingEntered s t (if s.dl.loadedOnce then .soft else .hard) ∧
        t.rs.sweep = .idle ∧ t.rs.scanPending = false

/-- R145 (with R16, R144): at an entry to LOADING by a CONTROL write, the results that wait stay in the completion list,
oldest first; every outstanding cell without a result but the reload cell is then completed ABANDONED with 0 at the
clock of the entry, in ascending cell index. A write of RESET first completes a reload cell that is held ABANDONED (R16,
R144); its place, between the two, is the model's choice (log entry 16), and so is that its result still waits in the
list, to be written during the new load (DESIGN CHOICE, log entry 41). A cell whose ACCEPTED is not written stays POSTED
and is not outstanding (R137); that one whose ACCEPTED is written, its request not yet handed on, is outstanding is the
model's reading (DEDUCED, log entry 43). -/
def Obligations.LoadingAbandonsCells : Prop :=
  ∀ (s : State) (data : BitVec 16) (flags : BitVec 32), s.inReset = false → data.getLsbD 0 = true →
    flags = (match s.rs.sweep with
      | .accepting c _ =>
        if (s.port.get .rs).writeDone .accept then s.rs.outstanding else setBit s.rs.outstanding c false
      | _ => s.rs.outstanding) →
    (data.getLsbD 1 = true →
      ∃ t, exec (.reset data) s = .next t ∧ t.rs.reloadCell = none ∧ t.rs.outstanding = flags ∧
        ∃ held, held = s.rs.completions ++ (match s.rs.reloadCell with
            | some c => [⟨c, .abandoned, 0, s.clock⟩]
            | none => []) ∧
          t.rs.completions = held ++
            ((List.range 32).filter (fun c => flags.getLsbD c && !held.any (fun x => x.cell == c))).map
              (fun c => ⟨c, .abandoned, 0, s.clock⟩)) ∧
    (s.part = .halted ∨ s.part = .descError →
      ∃ t, exec (.runSet data) s = .next t ∧ t.rs.outstanding = flags ∧
        (data.getLsbD 1 = false → t.rs.reloadCell = s.rs.reloadCell ∧
          t.rs.completions = s.rs.completions ++
            ((List.range 32).filter (fun c => flags.getLsbD c && s.rs.reloadCell != some c &&
              !s.rs.completions.any (fun x => x.cell == c))).map (fun c => ⟨c, .abandoned, 0, s.clock⟩)))

/-- R151, R152, R153: a read of CAUSE returns the eight flags and clears those returned; a write of MASK sets the low
byte; a write of ID, STATE, CAUSE or an unused address changes nothing; ATTN# is low exactly while ATTN_EN is 1 and a
flag is set whose bit in MASK is 1. While RESET# is held low the port ignores every transfer. -/
def Obligations.RegisterTransfers : Prop :=
  (∀ s : State, s.inReset = false →
    (∃ t, exec .causeRead s = .next t ∧
      t.visible = ({ s with readData := s.cause.setWidth 16, cause := 0 } : State).visible) ∧
    (∀ data, ∃ t, exec (.maskWrite data) s = .next t ∧
      t.visible = ({ s with mask := data.setWidth 8 } : State).visible) ∧
    (∀ addr data, addr ≠ 2 → addr ≠ 3 → addr ≠ 5 →
      ∃ t, exec (.ignoredRegisterWrite addr data) s = .next t ∧ t.visible = s.visible)) ∧
  (∀ s : State, s.attnLow = true ↔
    s.attnEn = true ∧ ∃ f : CauseFlag, s.hasCause f = true ∧ s.mask.getLsbD f.bit = true) ∧
  ∀ (s : State) (data : BitVec 16) (addr : BitVec 3), s.inReset = true →
    ∀ c ∈ [Instr.runSet data, .runClear data, .reset data, .attnEn data, .attention data, .causeRead, .maskWrite data,
      .ignoredRegisterWrite addr data], exec c s = .next s

/-- R137: a write of ATTENTION starts a sweep at cell 0 in RUNNING, is remembered while one is in progress, and is
discarded in any other part state. -/
def Obligations.AttentionTriggersSweep : Prop :=
  ∀ (s : State) (data : BitVec 16), s.inReset = false →
    ∃ t, exec (.attention data) s = .next t ∧
      (s.part = .running → s.rs.sweep = .idle →
        t.visible = ({ s with rs := { s.rs with sweep := .stateRead 0 } } : State).visible ∧
        t.port.get .rs = ⟨(s.port.get .rs).queue ++ [.read 0x011000], []⟩) ∧
      (s.part = .running → s.rs.sweep ≠ .idle →
        t.visible = ({ s with rs := { s.rs with scanPending := true } } : State).visible) ∧
      (s.part ≠ .running → t.visible = s.visible)

/-! ### The description load -/

/-- R12: the report is of the first check that fails, and there is none exactly where every check passes. R2: the header
passes exactly where every field is in the range of the table. R13: the codes of the checks of each record, in the order
of the checks. -/
def Obligations.ChecksInOrderAndHeaderRanges : Prop :=
  (∀ checks : List (Bool × Nat),
    (firstFailure checks = none ↔ ∀ x ∈ checks, x.1 = true) ∧
    (∀ code, firstFailure checks = some code →
      ∃ passed later, checks = passed ++ (false, code) :: later ∧ ∀ x ∈ passed, x.1 = true)) ∧
  (∀ f : List Nat, firstFailure (headerChecks f) = none ↔
    fieldAt f 0 = 0xC384 ∧ 1 ≤ (headerOf f).stops ∧ (headerOf f).stops ≤ 384 ∧
    1 ≤ (headerOf f).divisions ∧ (headerOf f).divisions ≤ 8 ∧ 1 ≤ (headerOf f).boards ∧ (headerOf f).boards ≤ 16 ∧
    (headerOf f).generals ≤ 48 ∧ 1 ≤ (headerOf f).levels ∧ (headerOf f).levels ≤ 256 ∧
    (headerOf f).pistons ≤ 256 ∧ 10 ≤ (headerOf f).budget ∧ (headerOf f).budget ≤ 400 ∧
    2 ≤ (headerOf f).roundPeriod ∧ (headerOf f).roundPeriod ≤ 20 ∧
    1 ≤ (headerOf f).replyTimeout ∧ (headerOf f).replyTimeout ≤ 20 ∧ (headerOf f).filterShift ≤ 4 ∧
    (headerOf f).hysteresis ≤ 32 ∧ (headerOf f).startProgram ≤ 3 ∧ fieldAt f 16 ≤ 1 ∧ fieldAt f 17 ≤ 1 ∧
    (headerOf f).lo ≤ 4095 ∧ (headerOf f).hi ≤ 4095 ∧ (headerOf f).lo + 256 ≤ (headerOf f).hi ∧
    (headerOf f).startLevel < (headerOf f).levels) ∧
  ∀ (d : Desc) (f : List Nat) (n : Nat) (lower : List BoardRec),
    (headerChecks f).map Prod.snd = [2, 1, 1, 1, 1, 1, 1, 2, 2, 2, 2, 2, 2, 2, 2, 2, 2, 9, 11] ∧
    (divisionChecks d.header n f).map Prod.snd = [1, 2] ∧ (boardChecks lower f).map Prod.snd = [2, 1, 1, 3, 8] ∧
    (stopChecks d f).map Prod.snd = [2, 2, 2, 3, 2, 2, 2, 2, 2, 2, 2, 2, 2, 2, 2, 3, 2, 4, 5, 6, 7] ∧
    (pistonChecks d f).map Prod.snd = [2, 3, 2, 2, 2, 2, 2, 4]

/-- R4, R5, R6, R7, R8, R9, R11: a division, a board and a stop record and a piston map entry pass exactly where their
fields are in the ranges of the rules and, for the last two, clash with no record before them. That
a shoe flag byte is set where it is not 0, on a jamb and on a chest board, is the model's reading (DEDUCED, log entry
19). -/
def Obligations.PassedStopAndPistonRecords : Prop :=
  (∀ (h : Header) (n : Nat) (f : List Nat), firstFailure (divisionChecks h n f) = none ↔
    (divisionOf f).pistons ≤ 10 ∧ ∀ x, (divisionOf f).follow = some x → x < h.divisions ∧ x ≠ n) ∧
  (∀ (lower : List BoardRec) (f : List Nat) (r : BoardRec), r = boardOf f →
    (firstFailure (boardChecks lower f) = none ↔
      fieldAt f 0 ≤ 2 ∧
      (r.kind = .jamb → r.contacts ≤ 64 ∧ r.coils ≤ 32 ∧ r.lamps ≤ 32 ∧
        (r.shoe = true → ∀ b ∈ lower, ¬ (b.kind = .jamb ∧ b.shoe = true))) ∧
      (r.kind = .chest → r.chestBits ≤ 128 ∧ fieldAt f 4 = 0))) ∧
  (∀ (d : Desc) (f : List Nat), firstFailure (stopChecks d f) = none ↔ ∃ r, r = stopRecOf f ∧
    fieldAt f 0 ≤ 1 ∧ fieldAt f 9 ≤ 1 ∧ fieldAt f 10 ≤ 1 ∧ fieldAt f 12 ≤ 1 ∧
    r.division < d.header.divisions ∧ 1 ≤ r.board ∧ r.board ≤ 16 ∧
    (d.boardAt r.board).kind = .jamb ∧ r.contact < (d.boardAt r.board).contacts ∧
    (r.depth = 1 ∨ r.depth = 2 ∨ r.depth = 4 ∨ r.depth = 8) ∧
    (r.kind = .moved → r.coil < (d.boardAt r.board).coils ∧ 1 ≤ r.currentClass ∧ r.currentClass ≤ 40 ∧
      10 ≤ r.pulse ∧ r.pulse ≤ 250 ∧ r.settle ≤ 100) ∧
    (∀ l, r.lamp = some l → l < (d.boardAt r.board).lamps) ∧
    (∀ b k, r.chest = some (b, k) →
      1 ≤ b ∧ b ≤ 16 ∧ (d.boardAt b).kind = .chest ∧ k < (d.boardAt b).chestBits) ∧
    ∀ q ∈ d.stops,
      ¬ (r.board = q.board ∧ r.contact = q.contact) ∧
      ¬ (r.kind = .moved ∧ q.kind = .moved ∧ r.board = q.board ∧ r.coil = q.coil) ∧
      (∀ l, r.lamp = some l → ¬ (r.board = q.board ∧ q.lamp = some l)) ∧
      (∀ x, r.chest = some x → q.chest ≠ some x)) ∧
  ∀ (d : Desc) (f : List Nat), firstFailure (pistonChecks d f) = none ↔ ∃ p, p = pistonOf f ∧
    fieldAt f 2 ≤ 10 ∧ fieldAt f 3 ≤ 1 ∧
    1 ≤ p.board ∧ p.board ≤ 16 ∧ (d.boardAt p.board).kind = .jamb ∧ p.contact < (d.boardAt p.board).contacts ∧
    (p.depth = 1 ∨ p.depth = 2 ∨ p.depth = 4 ∨ p.depth = 8) ∧
    (∀ n, p.function = .general n → n < d.header.generals) ∧
    (∀ v k, p.function = .divisional v k → v < d.header.divisions ∧ k < (d.division v).pistons) ∧
    (∀ n, p.function = .reversible n → n < d.header.stops) ∧
    (∀ q ∈ d.stops, ¬ (q.board = p.board ∧ q.contact = p.contact)) ∧
    ∀ q ∈ d.pistons, ¬ (q.board = p.board ∧ q.contact = p.contact)

/-- R1, R12, R13, R160: DESCRIPTION_READ_COMPLETION in a record of the description: the record is read on, or, read in
full, it is checked; the first failing check ends the load with its report, whose bytes go to 0x0101C0 (and the cell of
a RELOAD is completed RANGE with code + 256 × class + 65,536 × index), and a record that passes is followed by the next.
The next read is of the field that comes next, at its place in its record. The records come in the order header,
divisions, boards, stops, piston map, programs, each as many as the header counts; the fields that are not read stand as
0 (R7, R8, R9). That a record's fields are read in ascending offset is the model's reading (log entry 9). -/
def Obligations.RecordCheckedWhenFull : Prop :=
  (∀ (s u : State) (load : Load) (f : List Nat), s.dl.phase = .reading load →
    (∀ p read, load.place ≠ .program p read) → u = finishRead .dl s →
    f = load.place.padded load.place.fields.length (load.fields ++ [natLE (u.readBytes .dl)]) →
    ∃ t, exec .descriptionReadCompletion s = .next t ∧ t.mem = u.mem ∧
      (f.length < load.place.fields.length →
        t.dl = { s.dl with phase := .reading { load with fields := f } } ∧ Same [.mem, .dl] s.visible t.visible ∧
        ∀ a n, load.place.nextField f = some (a, n) →
          t.port.get .dl = ⟨(u.port.get .dl).queue ++ readAccesses a n, []⟩) ∧
      (¬ f.length < load.place.fields.length → firstFailure (recordChecks load.copy load.place f) = none →
        ∀ (copy : Desc) (next : LoadPlace),
          copy = (match load.place with
            | .header => { header := headerOf f }
            | .division _ => { load.copy with divisions := load.copy.divisions ++ [divisionOf f] }
            | .board _ => { load.copy with boards := load.copy.boards ++ [boardOf f] }
            | .stop _ => { load.copy with stops := load.copy.stops ++ [stopRecOf f] }
            | .piston _ => { load.copy with pistons := load.copy.pistons ++ [pistonOf f] }
            | .program _ _ => load.copy) →
          next = (match load.place with
            | .header => .division 0
            | .division d => if d + 1 < copy.header.divisions then .division (d + 1) else .board 0
            | .board b => if b + 1 < copy.header.boards then .board (b + 1) else .stop 0
            | .stop n => if n + 1 < copy.header.stops then .stop (n + 1)
              else if copy.header.pistons = 0 then .program 0 {} else .piston 0
            | .piston n => if n + 1 < copy.header.pistons then .piston (n + 1) else .program 0 {}
            | .program p _ => .program (p + 1) {}) →
          t.dl = { s.dl with phase := .reading { load with copy := copy, place := next, fields := [] } } ∧
          Same [.mem, .dl] s.visible t.visible ∧
          ∀ a n, next.nextField [] = some (a, n) →
            t.port.get .dl = ⟨(u.port.get .dl).queue ++ readAccesses a n, []⟩) ∧
      (∀ code, ¬ f.length < load.place.fields.length →
        firstFailure (recordChecks load.copy load.place f) = some code →
        t.dl = { s.dl with
          errorCode := code, recordClass := load.place.recordClass, recordIndex := load.place.recordIndex
          phase := .reporting s.rs.reloadCell } ∧
        (∀ c, s.rs.reloadCell = some c → t.rs = { s.rs with
          reloadCell := none
          completions := s.rs.completions ++
            [⟨c, .range, code + 256 * load.place.recordClass + 65536 * load.place.recordIndex, s.clock⟩] }) ∧
        (s.rs.reloadCell = none → t.rs = s.rs) ∧ Same [.mem, .dl, .rs] s.visible t.visible ∧
        (t.port.get .dl).queue = (u.port.get .dl).queue ++ writeAccesses .report 0x0101C0
          (bytesLE 1 code ++ bytesLE 1 load.place.recordClass ++ bytesLE 2 load.place.recordIndex))) ∧
  (∀ (place : LoadPlace) (f g : List Nat) (o : Nat), g = place.padded place.fields.length f →
    (place = .header ∨ place = .division o ∨ place = .board o → g = f) ∧
    (place = .stop o →
      (f.length = 4 → g = if f.getD 0 0 = 1 then f ++ [0, 0, 0, 0] else f) ∧
      (f.length = 11 → g = if f.getD 10 0 = 0 then f ++ [0] else f) ∧
      (f.length = 13 → g = if f.getD 12 0 = 0 then f ++ [0, 0] else f) ∧
      (f.length ∉ [4, 5, 6, 7, 11, 13, 14] → g = f)) ∧
    (place = .piston o →
      (f.length = 5 → g =
        if f.getD 2 0 = 0 ∨ f.getD 2 0 = 1 then f else if f.getD 2 0 = 10 then f ++ [0] else f ++ [0, 0]) ∧
      (f.length = 6 → g = if f.getD 2 0 = 1 ∨ f.getD 2 0 = 10 then f else f ++ [0]) ∧
      (f.length ∉ [5, 6] → g = f))) ∧
  ∀ (place : LoadPlace) (f : List Nat),
    (∀ p read, place = .program p read → place.nextField f = some (0x015000 + 4096 * p + read.offset, 2)) ∧
    ∀ base o n, (place, base) ∈ [(LoadPlace.header, 0x000000), (.division o, 0x000020 + 2 * o),
        (.board o, 0x000040 + 8 * o), (.stop o, 0x000100 + 16 * o), (.piston o, 0x001900 + 8 * o)] →
      place.fields[f.length]? = some n → place.nextField f = some (base + n.1, n.2)

/-- R10: DESCRIPTION_READ_COMPLETION in a crescendo program before the last: a field out of range ends the load with
CRESC_RANGE, class PROGRAM and the program number; a program read whole is followed by the next, and its contents are
kept if it is the one R15 makes active. R76, R78: the next field stands behind the one read, at its place in the program
(what a field makes of the reading is the last clause of ProgramLoadChecked). R13: the cell of a RELOAD is completed
RANGE. That a field of a program is checked as it is read, and not once the program has been read in full, is the
model's reading (DEDUCED, log entry 18). -/
def Obligations.ProgramCheckedAtLoad : Prop :=
  ∀ (s u : State) (load : Load) (p : Nat) (read : ProgramRead) (out : ProgramStep),
    s.dl.phase = .reading load → load.place = .program p read → u = finishRead .dl s →
    out = read.take load.copy.header.stops (natLE (u.readBytes .dl)) →
    ∃ t, exec .descriptionReadCompletion s = .next t ∧ t.mem = u.mem ∧
      (∀ j, out = .failed j →
        t.dl = { s.dl with
          errorCode := 10, recordClass := 5, recordIndex := p, phase := .reporting s.rs.reloadCell } ∧
        t.rs = { s.rs with
          reloadCell := none
          completions := s.resultsWith s.rs.reloadCell .range (10 + 256 * 5 + 65536 * p) } ∧
        Same [.mem, .dl, .rs] s.visible t.visible ∧
        (t.port.get .dl).queue = (u.port.get .dl).queue ++
          writeAccesses .report 0x0101C0 (bytesLE 1 10 ++ bytesLE 1 5 ++ bytesLE 2 p)) ∧
      (∀ r, out = .more r →
        t.dl = { s.dl with phase := .reading { load with place := .program p r } } ∧
        Same [.mem, .dl] s.visible t.visible ∧
        t.port.get .dl = ⟨(u.port.get .dl).queue ++ readAccesses (0x015000 + 4096 * p + r.offset) 2, []⟩) ∧
      (∀ stages, out = .whole stages → p < 3 →
        Same [.mem, .dl] s.visible t.visible ∧
        t.port.get .dl = ⟨(u.port.get .dl).queue ++ readAccesses (0x015000 + 4096 * (p + 1)) 2, []⟩ ∧
        t.dl = { s.dl with phase := .reading { load with
        place := .program (p + 1) {}
        fields := []
        program :=
          if p = (if s.dl.loadCause = some .soft then s.cu.program.getD 0 else load.copy.header.startProgram)
          then stages else load.program } })

/-- R14, R15: at the last field of the last program the working copy is handed over, the part enters CENSUS, and level,
capture settings, crescendo program and calibration ends settle by the load cause. Some described board is UNKNOWN, as
every one is after the entry to LOADING. -/
def Obligations.HandOverByCause : Prop :=
  ∀ (s : State) (load : Load) (read : ProgramRead) (stages : List (List Nat)) (h : Header) (active : Nat) (i : Fin 16),
    s.dl.phase = .reading load → load.place = .program 3 read →
    read.take load.copy.header.stops (natLE ((finishRead .dl s).readBytes .dl)) = .whole stages →
    h = load.copy.header →
    active = (if s.dl.loadCause = some .soft then s.cu.program.getD 0 else h.startProgram) →
    (load.copy.board i).kind ≠ .none → s.lc.boards[i].state = .unknown →
    ∃ t, exec .descriptionReadCompletion s = .next t ∧
      t.part = .census ∧ t.hasCause .state = true ∧
      t.dl = { s.dl with valid := true, copy := load.copy, loadedOnce := true, phase := .idle } ∧
      t.ce.level = (if s.dl.loadCause = some .hard then h.startLevel
        else if s.ce.level ≥ h.levels then h.levels - 1 else s.ce.level) ∧
      t.ce.captureEnable = (if s.dl.loadCause = some .hard then h.captureEnable else s.ce.captureEnable) ∧
      t.ce.captureScope = (if s.dl.loadCause = some .hard then h.captureScope else s.ce.captureScope) ∧
      t.cu.program = some active ∧
      t.cu.images = stageImages 0 (if active = 3 then stages else load.program) ∧
      t.cu.stageCount = (if active = 3 then stages else load.program).length ∧
      t.cu.lo = (if s.dl.loadCause = some .soft then s.cu.lo else h.lo) ∧
      t.cu.hi = (if s.dl.loadCause = some .soft then s.cu.hi else h.hi) ∧
      t.cu.signal = .none ∧ t.cu.q = 0 ∧ t.cu.stage = 0 ∧ t.cu.loading = none ∧
      t.lc.inRound = true ∧ t.lc.due = s.clock + BitVec.ofNat 32 h.roundPeriod ∧
      (∃ j, t.lc.exchange = .sending j .census) ∧ t.jw = s.jw ∧ t.rs = s.rs ∧ t.clock = s.clock

/-- R13: when the report's writes are complete the part enters DESC_ERROR and STATE is raised, unless the completion of
a RELOAD cell is still to be written. -/
def Obligations.ReportEntersDescError : Prop :=
  ∀ (s : State) (cell : Option Nat), s.dl.phase = .reporting cell →
    ∃ t, exec .errorReportWriteCompletion s = .next t ∧ t.mem = (finishWrite .dl .report s).mem ∧
      ((t.port.get .dl).writeDone .report) = true ∧
      (∀ c, cell = some c → s.completionWaits c = true →
        t.dl = { s.dl with phase := .awaitingCell c } ∧ Same [.mem, .dl] s.visible t.visible) ∧
      ((∀ c, cell = some c → s.completionWaits c = false) →
        t.part = .descError ∧ t.hasCause .state = true ∧ t.dl = { s.dl with phase := .idle } ∧
          Same [.mem, .dl, .part, .cause] s.visible t.visible)

/-! ### Invariants of the whole part -/

/-- R22: SI is the union of RI, CRI and, while the tutti flag is on, TI, after every step. -/
def Obligations.SpeakingIsUnionKept : Prop := ∀ s t : State, SpeakingIsUnion s → step s = .next t → SpeakingIsUnion t

/-- R44, R57, R62, R147: the action queue never holds more than 8 entries, the undo stack more than 4, the step-request
list more than 4, the entry list more than 16, and the lost count never exceeds 65,535. R45, R62: in RUNNING the
Combination Engine never stays IDLE while its queue holds a record, nor the Sequencer while a request waits. -/
def Obligations.ListsBoundedKept : Prop :=
  (∀ s t : State, ListsBounded s → step s = .next t → ListsBounded t) ∧
  (∀ s t : State, NoneWaitsIdle s → step s = .next t → NoneWaitsIdle t)

/-- R36, R83, R116, R134: a mirror group's count is odd while its update is in progress; a change of a value marks its
group stale or is in the update that begins with it, and no group stays stale without an update in progress. R72, R81:
the calibration ends span at least 256 once a load has succeeded. -/
def Obligations.CountsAndSpanKept : Prop :=
  (∀ s t : State, CountsGuard s → step s = .next t → CountsGuard t) ∧
  (∀ s t : State, SpanKept s → step s = .next t → SpanKept t) ∧
  (∀ s t : State, HeldInReset s → MirrorsFollow s → step s = .next t → MirrorsFollow t)

/-- R98, R102: the motion queue holds at most one entry per stop; the committed current is the sum of the classes of the
entries that are SENT or PULSING and never exceeds the budget unless exactly one entry is; at most 48 are, and at most 8
commands are outstanding for any one board. -/
def Obligations.BudgetKeptByEveryStep : Prop := ∀ s t : State, MotionSound s → step s = .next t → MotionSound t

/-! ### Change sets, motion entries and dispatch -/

/-- R23: the change set of an action. The bits of faulted and unreachable stops are held, the tutti flag goes off with
it, SI is recomputed, and the MOVED stops whose RI bit changed are handed to the Motion Scheduler, whose queue, sums and
outgoing lists become what enqueueing them makes (step 4); the moves are their number. -/
def Obligations.ChangeSetApplied : Prop :=
  ∀ (s t : State) (c : ChangeSet), t = applyChangeSet c s →
    (∀ n, t.ru.ri.getLsbD n =
      if c.mask.getLsbD n = true ∧ s.isHeld n = false then c.bits.getLsbD n else s.ru.ri.getLsbD n) ∧
    t.ru.tutti = (s.ru.tutti && !c.tuttiOff) ∧ SpeakingIsUnion t ∧ t.ru.mirror = s.ru.mirror ∧
    (∀ n, (s.movedBy c).getLsbD n = (s.desc.isMoved n && (s.ru.ri.getLsbD n != t.ru.ri.getLsbD n))) ∧
    s.movesOf c = movesBetween s t ∧
    t.ms = (enqueueMoves (s.movedBy c) { s with ru := t.ru }).ms ∧
    t.lc = (enqueueMoves (s.movedBy c) { s with ru := t.ru }).lc ∧
    OnlyMovesQueued s t ∧ Same [.ru, .ms, .lc] s t

/-- R101: what the Motion Scheduler makes of a change set: a QUEUED entry whose target now equals CI is removed, an
entry takes its new target, in flight with re-aim set, and new entries join the tail, offs before ons, ascending. -/
def Obligations.MovesEnqueued : Prop :=
  ∀ (s t : State) (moved : StopImage) (kept : List MotionEntry) (new : List Nat),
    t = enqueueMoves moved s →
    kept = s.ms.queue.filter (fun e => !(moved.getLsbD e.stop && e.isQueued &&
      s.ru.ri.getLsbD e.stop == s.cs.ci.getLsbD e.stop)) →
    new = (List.range 384).filter (fun n => moved.getLsbD n && s.ru.ri.getLsbD n != s.cs.ci.getLsbD n &&
      !s.ms.queue.any (fun e => e.stop == n)) →
    t.ms.queue.map MotionEntry.stop = kept.map MotionEntry.stop ++
      (new.filter (fun n => !s.ru.ri.getLsbD n) ++ new.filter (fun n => s.ru.ri.getLsbD n)) ∧
    (∀ e ∈ kept, ∃ x ∈ t.ms.queue, x.stop = e.stop ∧ x.retried = e.retried ∧
      x.target = (if moved.getLsbD e.stop then s.ru.ri.getLsbD e.stop else e.target) ∧
      x.reaim = (e.reaim || (moved.getLsbD e.stop && !e.isQueued)) ∧ (e.isQueued = false → x.state = e.state)) ∧
    (∀ n ∈ new, ∃ x ∈ t.ms.queue, x.stop = n ∧ x.target = s.ru.ri.getLsbD n ∧ x.retried = false ∧ x.reaim = false ∧
      (x.state = .queued ∨ x.state = .sent)) ∧
    OnlyMovesQueued s t ∧ Same [.ms, .lc] s t

/-- R103, R104, R105: in RUNNING an examination dispatches the queue's heads in order while each meets the three
conditions, and stops at the first that fails one; no entry behind it is dispatched. -/
def Obligations.DispatchInOrder : Prop :=
  (∀ s : State, s.part ≠ .running → examineDispatch s = s) ∧
  ∀ (s t : State) (classes : List MotionEntry → Nat) (onBoard : Fin 16 → List MotionEntry → List MotionEntry),
    s.part = .running → t = examineDispatch s →
    (∀ q, classes q = ((q.filter MotionEntry.isQueued).map (fun e => s.desc.currentClass e.stop)).sum) →
    (∀ i q, onBoard i q = q.filter (fun e => e.isQueued && boardPlace (s.desc.stop e.stop).board == i)) →
    ∃ taken left, s.ms.queue = taken ++ left ∧
      t.ms.queue = taken.map (fun e => if e.isQueued then { e with state := .sent } else e) ++ left ∧
      t.ms.committed = s.ms.committed + classes taken ∧
      t.ms.energised = s.ms.energised + (taken.filter MotionEntry.isQueued).length ∧
      (∀ i : Fin 16, t.lc.boards[i].outgoing =
        s.lc.boards[i].outgoing ++ (onBoard i taken).map s.desc.coilCommand) ∧
      (∀ before e after, taken = before ++ e :: after → e.isQueued = true →
        (s.lc.boards[boardPlace (s.desc.stop e.stop).board]).outgoing.length +
            (onBoard (boardPlace (s.desc.stop e.stop).board) before).length < 8 ∧
          s.ms.energised + (before.filter MotionEntry.isQueued).length < 48 ∧
          (s.ms.committed + classes before + s.desc.currentClass e.stop ≤ s.desc.header.budget ∨
            s.ms.committed + classes before = 0)) ∧
      (∀ e rest, left = e :: rest → e.isQueued = true ∧
        ¬ ((t.lc.boards[boardPlace (s.desc.stop e.stop).board]).outgoing.length < 8 ∧ t.ms.energised < 48 ∧
          (t.ms.committed + s.desc.currentClass e.stop ≤ s.desc.header.budget ∨ t.ms.committed = 0))) ∧
      OnlyMovesQueued s t ∧ Same [.ms, .lc] s t

/-- R108, R109, R110, R31, R117: PULSE_END releases the entry's class and starts its settle time; SETTLE_END removes an
entry whose stop stands at its target, sends another to the tail, and declares a fault, recorded for FLT (for which
update, is the model's reading: DEDUCED, log entry 14), where its retry is spent. -/
def Obligations.PulseAndSettleEnd : Prop :=
  ∀ (s : State) (n : Nat) (e : MotionEntry) (x now : BitVec 32),
    s.ms.entryOf n = some e → s.isNextDue x = true → now = s.clock + BitVec.ofNat 32 (ahead s.clock x) →
    (e.state = .pulsing x →
      ∃ t, exec (.pulseEnd n) s = .next t ∧
        t.visible = (examineDispatch { s with clock := now, ms := { s.ms with
          committed := s.ms.committed - s.desc.currentClass n
          energised := s.ms.energised - 1
          queue := s.ms.queue.map (fun y => if y.stop == n then
            { y with state := .settling (now + BitVec.ofNat 32 (s.desc.stop n).settle) } else y) } }).visible) ∧
    (e.state = .settling x →
      ∃ t, exec (.settleEnd n) s = .next t ∧
        (s.cs.ci.getLsbD n = e.target →
          t.visible = ({ s with clock := now, ms := { s.ms with
            queue := s.ms.queue.filter (fun y => y.stop != n) } } : State).visible) ∧
        (s.cs.ci.getLsbD n ≠ e.target → e.reaim = true ∨ e.retried = false →
          t.visible = (examineDispatch { s with clock := now, ms := { s.ms with
            queue := s.ms.queue.filter (fun y => y.stop != n) ++
              [{ e with state := .queued, reaim := false, retried := e.retried || !e.reaim }] } }).visible) ∧
        (s.cs.ci.getLsbD n ≠ e.target → e.reaim = false → e.retried = true →
          t.visible.ms = { s.visible.ms with
            queue := s.ms.queue.filter (fun y => y.stop != n), fault := t.ms.fault } ∧
          (∀ k, k < 384 → t.ms.fault.getLsbD k = (decide (k = n) || s.ms.fault.getLsbD k)) ∧
          (∀ k, t.ru.ri.getLsbD k = if k = n then s.cs.ci.getLsbD n else s.ru.ri.getLsbD k) ∧
          t.ru.tutti = s.ru.tutti ∧ SpeakingIsUnion t ∧
          FaultRecorded s t ∧
          t.jw = (journal { kind := .motionFault, level := s.ce.level, argA := n, argB := e.target.toNat }
            { s with clock := now }).jw ∧
          t.clock = now ∧ Same [.clock, .ms, .ru, .jw] s.visible t.visible))

/-- R27, R28, R29, R91, R99, R111: a hand move sets the stop's CI bit. Without a motion entry RI follows it and the
fault flag goes; a QUEUED entry is retired, and dispatch is examined if it was the dispatch head; an entry in flight
stands. -/
def Obligations.HandMoveTaken : Prop :=
  ∀ (s t : State) (n : Nat) (closed : Bool) (retired : State), n < 384 → t = handMove n closed s →
    retired = { s with cs := t.cs, ms := { s.ms with queue := s.ms.queue.filter (fun e => e.stop != n) } } →
    (∀ k, t.cs.ci.getLsbD k = if k = n then closed else s.cs.ci.getLsbD k) ∧ t.cs = { s.cs with ci := t.cs.ci } ∧
    (s.ms.entryOf n = none →
      (∀ k, t.ru.ri.getLsbD k = if k = n then closed else s.ru.ri.getLsbD k) ∧
      (∀ k, t.ms.fault.getLsbD k = (s.ms.fault.getLsbD k && decide (k ≠ n))) ∧
      t.ru.tutti = s.ru.tutti ∧ SpeakingIsUnion t ∧ t.ms = { s.ms with fault := t.ms.fault } ∧
      Same [.cs, .ru, .ms] s t) ∧
    (∀ e, s.ms.entryOf n = some e → e.state = .queued →
      (s.ms.dispatchHead ≠ some e → t = retired) ∧ (s.ms.dispatchHead = some e → t = examineDispatch retired) ∧
      t.ru = s.ru ∧ OnlyMovesQueued s t) ∧
    (∀ e, s.ms.entryOf n = some e → e.state ≠ .queued → t = { s with cs := t.cs })

/-- R33, R34, R35, R88, R89, R113, R114: the loss of a jamb board removes the entries of its stops, releases their
current and marks its stops unreachable; at its return the contacts are taken as read, and the board is adopted (RI from
CI) at its first PRESENT since the load, or resynchronised (entries for the stops whose CI differs from RI). -/
def Obligations.BoardLossAndReturn : Prop :=
  ∀ (s : State) (i : Fin 16) (onBoard moved : Nat → Bool),
    (∀ k, onBoard k = (decide (k < 384) && (s.desc.stops[k]?).any (fun r => r.board == i.val + 1))) →
    (∀ k, moved k = (onBoard k && s.desc.isMoved k)) →
    (∀ t, t = loseBoard i s →
      (∀ k, t.ms.unreachable.getLsbD k = (s.ms.unreachable.getLsbD k || onBoard k)) ∧ t.ms.mirror.stale = true ∧
      t.visible = (examineDispatch { s with ms := { s.ms with
        queue := s.ms.queue.filter (fun e => !onBoard e.stop)
        committed := s.ms.committed - committedOf s.desc (s.ms.queue.filter (fun e => onBoard e.stop))
        energised := s.ms.energised - energisedOf (s.ms.queue.filter (fun e => onBoard e.stop))
        unreachable := t.ms.unreachable } }).visible) ∧
    ∀ (t : State) (levels : BitVec 64) (level : Nat → Bool), t = regainBoard i (adoptContacts i levels s) →
      (∀ k, level k = levels.getLsbD (s.desc.stop k).contact) →
      (∀ j : Fin 16, j ≠ i → t.cs.contacts[j] = s.cs.contacts[j]) ∧
      (∀ k : Fin 64, (s.desc.role i k.val = none → t.cs.contacts[i][k] = s.cs.contacts[i][k]) ∧
        ∀ r, s.desc.role i k.val = some r →
          t.cs.contacts[i][k] = ⟨levels.getLsbD k.val, 0, r.isPress && !levels.getLsbD k.val⟩) ∧
      (∀ k, t.cs.ci.getLsbD k = if moved k then level k else s.cs.ci.getLsbD k) ∧
      (∀ k, t.ms.unreachable.getLsbD k = (s.ms.unreachable.getLsbD k && !onBoard k)) ∧
      t.ms.mirror.stale = true ∧ t.ru.mirror.stale = true ∧
      (s.ms.adopted[i] = false →
        (∀ k, t.ru.ri.getLsbD k = if moved k then level k else s.ru.ri.getLsbD k) ∧
        t.ru.tutti = s.ru.tutti ∧ SpeakingIsUnion t ∧
        t.visible.ms = { s.visible.ms with
          unreachable := t.ms.unreachable, adopted := s.ms.adopted.set i true i.isLt } ∧
        Same [.cs, .ru, .ms] s.visible t.visible) ∧
      (s.ms.adopted[i] = true → ∀ astray,
        astray = (List.range 384).filter (fun k => moved k && s.ru.ri.getLsbD k != level k) →
        (∀ e ∈ s.ms.queue, e.stop ∉ astray) →
        (∀ k, t.ms.fault.getLsbD k = (s.ms.fault.getLsbD k && !decide (k ∈ astray))) ∧
        t.visible = (examineDispatch { s with
          cs := t.cs
          ms := { s.ms with
            unreachable := t.ms.unreachable
            fault := t.ms.fault
            queue := s.ms.queue ++
              (astray.filter (fun k => !s.ru.ri.getLsbD k) ++ astray.filter (fun k => s.ru.ri.getLsbD k)).map
                (fun k => ⟨k, s.ru.ri.getLsbD k, .queued, false, false⟩) } }).visible)

/-! ### Actions of the Combination Engine -/

/-- R53: CANCEL. R58: UNDO. Each ends at the event that takes it, and the engine then takes its queue on (R45). The
change set of each goes to the Motion Scheduler as R23 gives. Queue depth and undo depth are written to their mirrors at
each change (R44, R57). Where the rules give a result no value, the cell's value
is free (the model's choice, log entry 36). -/
def Obligations.CancelAndUndoTaken : Prop :=
  (∀ (s : State) (origin : Origin) (cell : Option Nat), s.nextAction = some ⟨.cancel, origin, cell⟩ →
    ∃ t v, exec .cancel s = .next t ∧ t.visible = (takeActions v).visible ∧
      t.port.get .ce = (takeActions v).port.get .ce ∧
      (∀ n, v.ru.ri.getLsbD n =
        if n < s.desc.header.stops ∧ s.desc.isExempt n = false ∧ s.isHeld n = false then false
        else s.ru.ri.getLsbD n) ∧
      v.ru.tutti = false ∧ SpeakingIsUnion v ∧
      v.ce = { s.ce with queue := s.ce.queue.tail, undo := (s.ru.ri :: s.ce.undo).take 4 } ∧
      waitsNow s v .ce ((0x0101A3, s.ce.queue.tail.length) :: pushedDepth s.ce.undo.length) [] ∧
      v.jw = (journal { kind := .cancelled, origin := origin, level := s.ce.level, argA := movesBetween s v } s).jw ∧
      v.rs = { s.rs with completions := s.resultsWith cell .ok (movesBetween s v) } ∧
      MovesHandedOver s v ∧ Same [.ce, .ru, .ms, .lc, .rs, .jw] s.visible v.visible) ∧
  ∀ (s : State) (origin : Origin) (cell : Option Nat), s.nextAction = some ⟨.undo, origin, cell⟩ →
    ∃ t v, exec .undo s = .next t ∧ t.visible = (takeActions v).visible ∧
      t.port.get .ce = (takeActions v).port.get .ce ∧
      waitsNow s v .ce ((0x0101A3, s.ce.queue.tail.length) ::
        if s.ce.undo = [] then [] else [(0x0101A4, s.ce.undo.tail.length)]) [] ∧
      (s.ce.undo = [] →
        v.visible = ({ s with
          ce := { s.ce with queue := s.ce.queue.tail }
          jw := (journal { kind := .undo, origin := origin, level := s.ce.level, argB := 0xFFFF } s).jw
          rs := { s.rs with completions := s.resultsWith cell .empty (s.unstated cell) } } : State).visible) ∧
      (∀ snapshot rest, s.ce.undo = snapshot :: rest →
        (∀ n, v.ru.ri.getLsbD n =
          if n < s.desc.header.stops ∧ s.isHeld n = false then snapshot.getLsbD n else s.ru.ri.getLsbD n) ∧
        v.ru.tutti = s.ru.tutti ∧ SpeakingIsUnion v ∧
        v.ce = { s.ce with queue := s.ce.queue.tail, undo := rest } ∧
        v.jw = (journal ⟨.undo, origin, s.ce.level, 0xFF, movesBetween s v, rest.length, 0⟩ s).jw ∧
        v.rs = { s.rs with completions := s.resultsWith cell .ok (movesBetween s v) } ∧
        MovesHandedOver s v ∧ Same [.ce, .ru, .ms, .lc, .rs, .jw] s.visible v.visible)

/-- R56: REVERSE and STOP_SET, refused for a faulted or unreachable stop; otherwise a change set of one stop, handed on
as R23 gives; the queue depth is written to its mirror (R44), and the engine then takes its queue on (R45). The value
with DISABLED is free (the model's choice, log entry 36). -/
def Obligations.ReverseAndStopSetTaken : Prop :=
  ∀ (s : State) (c : Instr) (kind : ActionKind) (origin : Origin) (cell : Option Nat) (n : Nat) (bit : Bool),
    s.nextAction = some ⟨kind, origin, cell⟩ → n < 384 →
    (c = .reverse ∧ kind = .reverse n ∧ bit = !s.ru.ri.getLsbD n) ∨ (c = .stopSet ∧ kind = .stopSet n bit) →
    ∃ t v, exec c s = .next t ∧ t.visible = (takeActions v).visible ∧
      t.port.get .ce = (takeActions v).port.get .ce ∧ waitsNow s v .ce [(0x0101A3, s.ce.queue.tail.length)] [] ∧
      (s.isHeld n = true →
        v.visible = ({ s with
          ce := { s.ce with queue := s.ce.queue.tail }
          jw := (journal { kind := .reversed, origin := origin, level := s.ce.level, argA := n, argB := 0xFFFF } s).jw
          rs := { s.rs with completions := s.resultsWith cell .disabled (s.unstated cell) } } : State).visible) ∧
      (s.isHeld n = false →
        (∀ k, v.ru.ri.getLsbD k = if k = n then bit else s.ru.ri.getLsbD k) ∧
        v.ru.tutti = s.ru.tutti ∧ SpeakingIsUnion v ∧ v.ce = { s.ce with queue := s.ce.queue.tail } ∧
        v.jw = (journal ⟨.reversed, origin, s.ce.level, 0xFF, n, bit.toNat, 0⟩ s).jw ∧
        v.rs = { s.rs with completions := s.resultsWith cell .ok (movesBetween s v) } ∧
        MovesHandedOver s v ∧ Same [.ce, .ru, .ms, .lc, .rs, .jw] s.visible v.visible)

/-- R45, R47, R51, R52: RECALL starts the read of its slot; CAPTURE is refused DISABLED for a piston while capture
enable is off (with a free value, the model's choice, log entry 36; the engine then takes its queue on, R45), and
otherwise starts the read of its level's lock byte; the capture scope of a general index is the one that stands as the
CAPTURE is taken. The queue depth and the engine state are written to their mirrors before the read (R44, R45). -/
def Obligations.RecallAndCaptureTaken : Prop :=
  ∀ (s : State) (origin : Origin) (cell : Option Nat) (level piston : Nat),
    (s.nextAction = some ⟨.recall level piston, origin, cell⟩ →
      ∃ t, exec .recall s = .next t ∧
        t.visible = ({ s with ce := { s.ce with
          queue := s.ce.queue.tail
          job := some (.recallRead ⟨.recall level piston, origin, cell⟩ level piston) } } : State).visible ∧
        readsNow s t .ce [(0x0101A3, s.ce.queue.tail.length), (0x0101A5, 1)] (0x020000 + (level * 128 + piston) * 56)
          56) ∧
    (s.nextAction = some ⟨.capture level piston, origin, cell⟩ →
      ∃ t, exec .capture s = .next t ∧
        (s.ce.captureEnable = false ∧ (origin = .thumb ∨ origin = .toe) →
          ∃ v : State, t.visible = (takeActions v).visible ∧ t.port.get .ce = (takeActions v).port.get .ce ∧
            waitsNow s v .ce [(0x0101A3, s.ce.queue.tail.length)] [] ∧ v.visible = ({ s with
            ce := { s.ce with queue := s.ce.queue.tail }
            jw := (journal ⟨.captureRefused, origin, level, piston, 8, 0, 0⟩ s).jw
            rs := { s.rs with completions := s.resultsWith cell .disabled (s.unstated cell) } } : State).visible) ∧
        (¬ (s.ce.captureEnable = false ∧ (origin = .thumb ∨ origin = .toe)) →
          t.visible = ({ s with ce := { s.ce with
            queue := s.ce.queue.tail
            job := some (.lockRead ⟨.capture level piston, origin, cell⟩ level piston
              (if piston < 48 then s.ce.captureScope else 1#8 <<< ((piston - 48) / 10))) } } : State).visible ∧
          readsNow s t .ce [(0x0101A3, s.ce.queue.tail.length), (0x0101A5, 1)] (0x019000 + level) 1))

/-- R23, R46, R47, R48, R57: RECALL_SLOT_READ_COMPLETION. A slot that is not sound changes nothing; a sound one gives
its bits to the stops of the effective scope, hands the changed MOVED stops to the Motion Scheduler, pushes a snapshot,
and goes on to the follow where there is one; where the action ends, the engine takes its queue on (R45). Undo depth and
engine state are written to their mirrors at each change (R57, R45). The value with EMPTY and CORRUPT is free (the
model's choice, log entry 36). That the effective scope of a divisional index of a division of D or above is journaled
as R48 defines it for every division is the model's reading (DEDUCED, log entry 39). -/
def Obligations.RecallSlotJudged : Prop :=
  ∀ (s u : State) (a : Action) (level piston : Nat), s.ce.job = some (.recallRead a level piston) →
    u = finishRead .ce s →
    ∃ t v, exec .recallSlotReadCompletion s = .next t ∧ t.visible = (takeActions v).visible ∧
      t.port.get .ce = (takeActions v).port.get .ce ∧ v.mem = u.mem ∧
      (∀ r, (judgeSlot (u.readBytes .ce) = .empty ∧ r = .empty) ∨ (judgeSlot (u.readBytes .ce) = .corrupt ∧ r = .corrupt) →
        waitsNow u v .ce [(0x0101A5, 0)] [] ∧ v.visible = ({ s with
          mem := u.mem
          ce := { s.ce with job := none }
          jw := (journal ⟨.recallRefused, a.origin, level, piston, RequestResult.code r, 0, 0⟩ s).jw
          rs := { s.rs with completions := s.resultsWith a.cell r (s.unstated a.cell) } } : State).visible) ∧
      (∀ scope image effective recalled, judgeSlot (u.readBytes .ce) = .sound scope image →
        effective = (if piston < 48 then scope else scope &&& 1#8 <<< ((piston - 48) / 10)) →
        recalled = (⟨.recalled, a.origin, level, piston, movesBetween s v, effective.toNat, 0⟩ : JournalEntry) →
        (∀ n, v.ru.ri.getLsbD n =
          if n < s.desc.header.stops ∧ s.desc.inScope effective n = true ∧ s.isHeld n = false then image.getLsbD n
          else s.ru.ri.getLsbD n) ∧
        v.ru.tutti = s.ru.tutti ∧ SpeakingIsUnion v ∧
        v.ce = { s.ce with undo := (s.ru.ri :: s.ce.undo).take 4, job := v.ce.job } ∧
        MovesHandedOver s v ∧ Same [.mem, .ce, .ru, .ms, .lc, .rs, .jw] s.visible v.visible ∧
        (piston < 48 ∨ s.desc.header.divisions ≤ (piston - 48) / 10 ∨
            (s.desc.division ((piston - 48) / 10)).follow = none →
          v.ce.job = none ∧ waitsNow u v .ce (pushedDepth s.ce.undo.length ++ [(0x0101A5, 0)]) [] ∧
          v.jw = (journal recalled s).jw ∧
          v.rs = { s.rs with completions := s.resultsWith a.cell .ok (movesBetween s v) }) ∧
        (∀ f, 48 ≤ piston → (piston - 48) / 10 < s.desc.header.divisions →
          (s.desc.division ((piston - 48) / 10)).follow = some f →
          ((s.desc.division f).pistons ≤ (piston - 48) % 10 →
            v.ce.job = none ∧ waitsNow u v .ce (pushedDepth s.ce.undo.length ++ [(0x0101A5, 0)]) [] ∧
            v.jw = (journal ⟨.recallRefused, .follow, level, 48 + 10 * f + (piston - 48) % 10, 4, 0, 0⟩
              { s with jw := (journal recalled s).jw }).jw ∧
            v.rs = { s.rs with completions := s.resultsWith a.cell .ok (movesBetween s v) }) ∧
          ((piston - 48) % 10 < (s.desc.division f).pistons →
            v.ce.job = some (.followRead a level f (48 + 10 * f + (piston - 48) % 10) (movesBetween s v)) ∧
            v.jw = (journal recalled s).jw ∧ v.rs = s.rs ∧
            readsNow u t .ce (pushedDepth s.ce.undo.length)
              (0x020000 + (level * 128 + (48 + 10 * f + (piston - 48) % 10)) * 56) 56)))

/-- R49: FOLLOW_SLOT_READ_COMPLETION. No second snapshot is pushed, a refused follow leaves the main recall standing,
and the request is completed OK with the moves of both; the engine then takes its queue on (R45). -/
def Obligations.FollowApplied : Prop :=
  ∀ (s u : State) (a : Action) (level f index moves : Nat),
    s.ce.job = some (.followRead a level f index moves) → u = finishRead .ce s →
    ∃ t v, exec .followSlotReadCompletion s = .next t ∧ t.visible = (takeActions v).visible ∧
      t.port.get .ce = (takeActions v).port.get .ce ∧ waitsNow u v .ce [(0x0101A5, 0)] [] ∧ v.mem = u.mem ∧
      v.ce = { s.ce with job := none } ∧
      (∀ r, (judgeSlot (u.readBytes .ce) = .empty ∧ r = .empty) ∨ (judgeSlot (u.readBytes .ce) = .corrupt ∧ r = .corrupt) →
        v.visible = ({ s with
          mem := u.mem
          ce := { s.ce with job := none }
          jw := (journal ⟨.recallRefused, .follow, level, index, RequestResult.code r, 0, 0⟩ s).jw
          rs := { s.rs with completions := s.resultsWith a.cell .ok moves } } : State).visible) ∧
      (∀ scope image effective, judgeSlot (u.readBytes .ce) = .sound scope image → effective = scope &&& 1#8 <<< f →
        (∀ n, v.ru.ri.getLsbD n =
          if n < s.desc.header.stops ∧ s.desc.inScope effective n = true ∧ s.isHeld n = false then image.getLsbD n
          else s.ru.ri.getLsbD n) ∧
        v.ru.tutti = s.ru.tutti ∧ SpeakingIsUnion v ∧
        v.jw = (journal ⟨.recalled, .follow, level, index, movesBetween s v, effective.toNat, 0⟩ s).jw ∧
        v.rs = { s.rs with completions := s.resultsWith a.cell .ok (moves + movesBetween s v) } ∧
        MovesHandedOver s v ∧ Same [.mem, .ce, .ru, .ms, .lc, .rs, .jw] s.visible v.visible)

/-- R41, R51, R52: LOCK_BYTE_READ_COMPLETION refuses LOCKED (with a free value, the model's choice, log entry 36), or
copies RI and starts the slot's writes with the scope read when the CAPTURE was taken, whatever a CAPTURE_SETUP has set
since; SLOT_WRITE_COMPLETION ends the capture: the slot that was being written is sound with its scope and image, and no
byte that no waiting access writes has changed. At each end the engine takes its queue on (R45). -/
def Obligations.CaptureWritesSlot : Prop :=
  ∀ (s u : State) (a : Action) (level piston : Nat) (scope : Byte),
    (s.ce.job = some (.lockRead a level piston scope) → u = finishRead .ce s →
      ∃ t, exec .lockByteReadCompletion s = .next t ∧
        (natLE (u.readBytes .ce) ≠ 0 →
          ∃ v : State, t.visible = (takeActions v).visible ∧ t.port.get .ce = (takeActions v).port.get .ce ∧
            waitsNow u v .ce [(0x0101A5, 0)] [] ∧ v.visible = ({ s with
            mem := u.mem
            ce := { s.ce with job := none }
            jw := (journal ⟨.captureRefused, a.origin, level, piston, 3, 0, 0⟩ s).jw
            rs := { s.rs with completions := s.resultsWith a.cell .locked (s.unstated a.cell) } } : State).visible) ∧
        (natLE (u.readBytes .ce) = 0 →
          ∀ image, (∀ n, image.getLsbD n = (s.ru.ri.getLsbD n && decide (n < s.desc.header.stops))) →
            t.visible = ({ s with
              mem := u.mem
              ce := { s.ce with job := some (.slotWrite a level piston scope (checkWord scope image)) } } : State).visible ∧
            waitsNow u t .ce [(0x0101A5, 2)]
              (slotAccesses (0x020000 + (level * 128 + piston) * 56) scope s.clock image))) ∧
    (∀ check, s.ce.job = some (.slotWrite a level piston scope check) → u = finishWrite .ce .slot s →
      ∃ t v, exec .slotWriteCompletion s = .next t ∧ t.visible = (takeActions v).visible ∧
        t.port.get .ce = (takeActions v).port.get .ce ∧ waitsNow u v .ce [(0x0101A5, 0)] [] ∧
        (∀ addr stamp image, s.mem.wf = true → SlotBeingWritten s addr scope stamp image →
          SlotWritten s t addr scope stamp image) ∧
        v.visible = ({ s with
          mem := u.mem
          ce := { s.ce with job := none }
          jw := (journal ⟨.captured, a.origin, level, piston, scope.toNat, check.toNat, 0⟩ s).jw
          rs := { s.rs with completions := s.resultsWith a.cell .ok check.toNat } } : State).visible)

/-- R39, R40, R41: the writes of a slot leave it VALID with the check word of its scope and image, touch no other byte,
and write the status last; a slot read back is sound with that scope and image; one whose status is not 0xC3 is EMPTY,
and one whose check word differs is CORRUPT. -/
def Obligations.SlotRoundTrip : Prop :=
  (∀ (m : Memory) (a : Nat) (scope : Byte) (stamp : BitVec 32) (image : StopImage), m.wf = true →
    judgeSlot ((m.after (slotAccesses a scope stamp image)).readBytes a 56) = .sound scope image ∧
    (m.after (slotAccesses a scope stamp image)).readBytes (a + 4) 4 = bytesLE 4 stamp.toNat ∧
    (∀ k, k < a ∨ a + 56 ≤ k → (m.after (slotAccesses a scope stamp image)).read k = m.read k) ∧
    (slotAccesses a scope stamp image).getLast? = some (.write .slot a 0xC3)) ∧
  ∀ bytes : List Byte, bytes.length = 56 →
    (judgeSlot bytes = .empty ↔ bytes.getD 0 0 ≠ 0xC3) ∧
    (∀ scope image, judgeSlot bytes = .sound scope image ↔
      bytes.getD 0 0 = 0xC3 ∧ scope = bytes.getD 1 0 ∧ image = imageOf (bytes.drop 8) ∧
        natLE ((bytes.drop 2).take 2) = (checkWord scope image).toNat)

/-- R19, R20, R54: TUTTI turns the flag off at one event or re-reads the tutti slot, TUTTI_SLOT_READ_COMPLETION turns it
on with a sound slot and off with any other, and RUNNING_TUTTI_READ_COMPLETION gives TI its value at the entry to
RUNNING. At each end the engine takes its queue on (R45). The value with EMPTY and CORRUPT is free (the model's choice,
log entry 36). -/
def Obligations.TuttiTaken : Prop :=
  (∀ (s : State) (state : TuttiState) (origin : Origin) (cell : Option Nat),
    s.nextAction = some ⟨.tutti state, origin, cell⟩ →
    ∃ t, exec .tutti s = .next t ∧
      (state = .off ∨ (state = .toggle ∧ s.ru.tutti = true) →
        ∃ v : State, t.visible = (takeActions v).visible ∧ t.port.get .ce = (takeActions v).port.get .ce ∧
        waitsNow s v .ce [(0x0101A3, s.ce.queue.tail.length)] [] ∧
        v.ru.ri = s.ru.ri ∧ v.ru.tutti = false ∧ SpeakingIsUnion v ∧
        v.ce = { s.ce with queue := s.ce.queue.tail } ∧
        v.jw = (journal { kind := .tutti, origin := origin, level := s.ce.level } s).jw ∧
        v.rs = { s.rs with completions := s.resultsWith cell .ok 0 } ∧
        Same [.ce, .ru, .jw, .rs] s.visible v.visible) ∧
      (state = .on ∨ (state = .toggle ∧ s.ru.tutti = false) →
        t.visible = ({ s with ce := { s.ce with
          queue := s.ce.queue.tail, job := some (.tuttiRead ⟨.tutti state, origin, cell⟩) } } : State).visible ∧
        readsNow s t .ce [(0x0101A3, s.ce.queue.tail.length), (0x0101A5, 1)] 0x019100 56)) ∧
  (∀ (s u : State) (a : Action), s.ce.job = some (.tuttiRead a) → u = finishRead .ce s →
    ∃ t v, exec .tuttiSlotReadCompletion s = .next t ∧ t.visible = (takeActions v).visible ∧
      t.port.get .ce = (takeActions v).port.get .ce ∧ waitsNow u v .ce [(0x0101A5, 0)] [] ∧
      v.mem = u.mem ∧ v.ru.ri = s.ru.ri ∧ SpeakingIsUnion v ∧
      Same [.mem, .ce, .ru, .jw, .rs] s.visible v.visible ∧
      (∀ scope image, judgeSlot (u.readBytes .ce) = .sound scope image →
        v.ru.tutti = true ∧ v.ce = { s.ce with job := none, ti := v.ce.ti } ∧
        (∀ n, v.ce.ti.getLsbD n = (image.getLsbD n && decide (n < s.desc.header.stops))) ∧
        v.jw = (journal { kind := .tutti, origin := a.origin, level := s.ce.level, argA := 1 } s).jw ∧
        v.rs = { s.rs with completions := s.resultsWith a.cell .ok 1 }) ∧
      (∀ r, (judgeSlot (u.readBytes .ce) = .empty ∧ r = .empty) ∨ (judgeSlot (u.readBytes .ce) = .corrupt ∧ r = .corrupt) →
        v.ru.tutti = false ∧ v.ce = { s.ce with job := none } ∧
        v.jw = (journal ⟨.recallRefused, a.origin, s.ce.level, 0xFF, RequestResult.code r, 0, 0⟩ s).jw ∧
        v.rs = { s.rs with completions := s.resultsWith a.cell r (s.unstated a.cell) })) ∧
  (∀ s u : State, s.ce.job = some .runningTuttiRead → u = finishRead .ce s →
    ∃ t v, exec .runningTuttiReadCompletion s = .next t ∧ t.visible = (takeActions v).visible ∧
      t.port.get .ce = (takeActions v).port.get .ce ∧ waitsNow u v .ce [(0x0101A5, 0)] [] ∧
      v.mem = u.mem ∧ v.ru.ri = s.ru.ri ∧
      v.ru.tutti = s.ru.tutti ∧ SpeakingIsUnion v ∧ v.ce = { s.ce with job := none, ti := v.ce.ti } ∧
      Same [.mem, .ce, .ru] s.visible v.visible ∧
      (∀ scope image, judgeSlot (u.readBytes .ce) = .sound scope image →
        ∀ n, v.ce.ti.getLsbD n = (image.getLsbD n && decide (n < s.desc.header.stops))) ∧
      ((∀ scope image, judgeSlot (u.readBytes .ce) ≠ .sound scope image) → v.ce.ti = 0))

/-- R55: TUTTI_CAPTURE is refused DISABLED, then LOCKED, or writes the tutti slot with scope 0xFF; at
TUTTI_CAPTURE_WRITE_COMPLETION TI takes the image written, the slot that was being written is sound with it, and the
tutti flag stands. At each end the engine takes its
queue on (R45). The value with DISABLED and LOCKED is free (the model's choice, log entry 36). -/
def Obligations.TuttiCaptureTaken : Prop :=
  (∀ (s : State) (origin : Origin) (cell : Option Nat) (disabled : Prop),
    s.nextAction = some ⟨.tuttiCapture, origin, cell⟩ →
    (disabled ↔ s.ce.captureEnable = false ∧ (origin = .thumb ∨ origin = .toe)) →
    ∃ t, exec .tuttiCapture s = .next t ∧
      (∀ r, (disabled ∧ r = .disabled) ∨ (¬ disabled ∧ s.desc.header.tuttiLock = true ∧ r = .locked) →
        ∃ v : State, t.visible = (takeActions v).visible ∧ t.port.get .ce = (takeActions v).port.get .ce ∧
          waitsNow s v .ce [(0x0101A3, s.ce.queue.tail.length)] [] ∧ v.visible = ({ s with
          ce := { s.ce with queue := s.ce.queue.tail }
          jw := (journal ⟨.captureRefused, origin, s.ce.level, 0xFF, RequestResult.code r, 0, 0⟩ s).jw
          rs := { s.rs with completions := s.resultsWith cell r (s.unstated cell) } } : State).visible) ∧
      (¬ disabled → s.desc.header.tuttiLock = false →
        ∀ image, (∀ n, image.getLsbD n = (s.ru.ri.getLsbD n && decide (n < s.desc.header.stops))) →
          t.visible = ({ s with ce := { s.ce with
            queue := s.ce.queue.tail
            job := some (.tuttiWrite ⟨.tuttiCapture, origin, cell⟩ image (checkWord 0xFF image)) } } : State).visible ∧
          waitsNow s t .ce [(0x0101A3, s.ce.queue.tail.length), (0x0101A5, 2)]
            (slotAccesses 0x019100 0xFF s.clock image))) ∧
  (∀ (s u : State) (a : Action) (image : StopImage) (check : BitVec 16),
    s.ce.job = some (.tuttiWrite a image check) → u = finishWrite .ce .slot s →
    ∃ t v, exec .tuttiCaptureWriteCompletion s = .next t ∧ t.visible = (takeActions v).visible ∧
      t.port.get .ce = (takeActions v).port.get .ce ∧ waitsNow u v .ce [(0x0101A5, 0)] [] ∧
      (∀ addr stamp, s.mem.wf = true → SlotBeingWritten s addr 0xFF stamp image →
        SlotWritten s t addr 0xFF stamp image) ∧
      v.mem = u.mem ∧ v.ru.ri = s.ru.ri ∧
      v.ru.tutti = s.ru.tutti ∧ SpeakingIsUnion v ∧ v.ce = { s.ce with job := none, ti := image } ∧
      v.jw = (journal ⟨.captured, a.origin, s.ce.level, 0xFF, 0xFF, check.toNat, 0⟩ s).jw ∧
      v.rs = { s.rs with completions := s.resultsWith a.cell .ok check.toNat } ∧
      Same [.mem, .ce, .ru, .jw, .rs] s.visible v.visible)

/-! ### Requests that join a queue or act at once -/

/-- R44, R45, R62, R138, R142: a request that is handed on joins the tail of the action queue or of the step-request
list, whose depth is written to its mirror, or is dropped and completed FULL where 8 or 4 wait; the sweep moves on. An
engine or a Sequencer that is IDLE in
RUNNING takes the head at the arrival (what `takeActions` and `takeSteps` do is the last two clauses of PressesDecoded).
FULL of the action queue carries 0, as in the example of one sweep; the value with FULL of the step-request list is free
(the model's choice, log entry 36). -/
def Obligations.RequestsJoinQueues : Prop :=
  ∀ (s u : State) (c a0 a1 : Nat) (kind : RequestKind) (cmd : Instr),
    s.rs.sweep = .accepting c ⟨kind, a0, a1⟩ → u = finishWrite .rs .accept s →
    (∀ k, (cmd, kind, k) ∈ [(Instr.recallRequest, RequestKind.recall, ActionKind.recall a0 a1),
        (.captureRequest, .capture, .capture a0 a1), (.cancelRequest, .cancel, .cancel),
        (.tuttiRequest, .tutti, .tutti (if a0 = 0 then .off else if a0 = 1 then .on else .toggle)),
        (.undoRequest, .undo, .undo), (.stopSetRequest, .stopSet, .stopSet a1 (a0 == 1))] →
      ∃ t w, exec cmd s = .next t ∧
        t.visible = ({ takeActions w with rs := (takeActions w).rs.movedOn c } : State).visible ∧
        t.port.get .ce = (takeActions w).port.get .ce ∧
        (s.part ≠ .running ∨ s.ce.job ≠ none → t.visible = ({ w with rs := w.rs.movedOn c } : State).visible) ∧
        (s.ce.queue.length < 8 →
          waitsNow u w .ce [(0x0101A3, s.ce.queue.length + 1)] [] ∧ w.visible = ({ s with
            mem := u.mem
            ce := { s.ce with queue := s.ce.queue ++ [⟨k, .consoleProcessor, some c⟩] } } : State).visible) ∧
        (8 ≤ s.ce.queue.length →
          w.port.get .ce = u.port.get .ce ∧ w.visible = ({ s with
            mem := u.mem
            jw := (journal ⟨.actionOverrun, .consoleProcessor, k.level.getD 0xFF, k.piston.getD 0xFF, k.code,
              k.stop.getD 0, 0⟩ s).jw
            rs := { s.rs with completions := s.resultsWith (some c) .full 0 } } : State).visible)) ∧
    (∀ k, (cmd, kind, k) ∈ [(Instr.seqSetRequest, RequestKind.seqSet, StepKind.set a1),
        (.seqStep, .seqStep, if a0 = 0 then StepKind.next else StepKind.prev)] →
      ∃ t w, exec cmd s = .next t ∧
        t.visible = ({ takeSteps w with rs := (takeSteps w).rs.movedOn c } : State).visible ∧
        t.port.get .sq = (takeSteps w).port.get .sq ∧
        (s.part ≠ .running ∨ s.sq.job ≠ none → t.visible = ({ w with rs := w.rs.movedOn c } : State).visible) ∧
        (s.sq.list.length < 4 →
          waitsNow u w .sq [(0x0101B2, s.sq.list.length + 1)] [] ∧ w.visible = ({ s with
            mem := u.mem
            sq := { s.sq with list := s.sq.list ++ [⟨k, .consoleProcessor, some c⟩] } } : State).visible) ∧
        (4 ≤ s.sq.list.length →
          w.port.get .sq = u.port.get .sq ∧ w.visible = ({ s with
            mem := u.mem
            jw := if kind = .seqSet then s.jw else
              (journal ⟨.sequence, .consoleProcessor, s.ce.level, 0xFF, s.sq.position.getD 0xFFFF, 0xFFFF, 0⟩ s).jw
            rs := { s.rs with
              completions := s.resultsWith (some c) .full (s.unstated (some c)) } } : State).visible) ∧
        (s.part = .running → s.sq.job = none → s.sq.list = [] →
          (k = .set 0xFFFF →
            t.visible = ({ s with
              mem := u.mem
              sq := { s.sq with position := none }
              rs := Requests.movedOn { s.rs with completions := s.resultsWith (some c) .ok 0xFFFF } c } : State).visible) ∧
          (k ≠ .set 0xFFFF →
            t.visible = ({ s with
              mem := u.mem
              sq := { s.sq with job := some (.lengthRead ⟨k, .consoleProcessor, some c⟩) }
              rs := s.rs.movedOn c } : State).visible ∧
            readsNow u t .sq [(0x0101B2, 1), (0x0101B2, 0)] 0x013000 4)))

/-- R42, R43, R51, R143: SELECT_LEVEL, LOCK_LEVEL with the completion of its write, and CAPTURE_SETUP. The LOCK_LEVEL
write is the engine's next access, behind earlier LOCK_LEVEL writes and the rest of a field being written alone (R43's
'at once'; log entry 34); at its completion the lock byte has been written. The level and both capture values go to
their mirrors, whatever they were. -/
def Obligations.LevelsAndCaptureSetup : Prop :=
  (∀ (s u : State) (c a0 a1 : Nat) (result : RequestResult → Nat → State → State),
    u = finishWrite .rs .accept s →
    (∀ r v x, result r v x = { x with
      mem := u.mem
      rs := Requests.movedOn { s.rs with completions := s.resultsWith (some c) r v } c }) →
    (s.rs.sweep = .accepting c ⟨.selectLevel, a0, a1⟩ →
      ∃ t, exec .selectLevel s = .next t ∧
        (a0 < s.desc.header.levels → t.visible = (result .ok a0 { s with
          ce := { s.ce with level := a0 }
          jw := (journal ⟨.level, .consoleProcessor, a0, 0xFF, s.ce.level, 0, 0⟩ s).jw }).visible ∧
          waitsNow u t .ce [(0x0101A0, a0)] []) ∧
        (s.desc.header.levels ≤ a0 → t.visible = (result .range 0 s).visible)) ∧
    (s.rs.sweep = .accepting c ⟨.lockLevel, a0, a1⟩ →
      ∃ t, exec .lockLevel s = .next t ∧
        (a0 < s.desc.header.levels ∧ a1 ≤ 1 →
          t.visible = ({ s with
            mem := u.mem
            ce := { s.ce with locks := s.ce.locks ++ [(c, a1)] }
            rs := s.rs.movedOn c } : State).visible ∧
          ∃ first later, (u.port.get .ce).queue = first ++ later ∧
            (t.port.get .ce).queue = first ++ .write .lock (0x019000 + a0) (BitVec.ofNat 8 a1) :: later ∧
            (∀ x ∈ first, Access.isFor .lock x = true ∨ x.continuesField = true) ∧
            ∀ x ∈ later.head?, Access.isFor .lock x = false ∧ x.continuesField = false) ∧
        (s.desc.header.levels ≤ a0 ∨ 1 < a1 → t.visible = (result .range 0 s).visible)) ∧
    (s.rs.sweep = .accepting c ⟨.captureSetup, a0, a1⟩ →
      ∃ t, exec .captureSetup s = .next t ∧
        (a0 ≤ 1 → t.visible = (result .ok a1 { s with
          ce := { s.ce with captureEnable := a0 == 1, captureScope := BitVec.ofNat 8 a1 } }).visible ∧
          waitsNow u t .ce [(0x0101A1, a0), (0x0101A2, a1)] []) ∧
        (1 < a0 → t.visible = (result .range 0 s).visible))) ∧
  ∀ (s u : State) (c x : Nat) (rest : List (Nat × Nat)), s.ce.locks = (c, x) :: rest →
    u = serveUntil .ce (fun q => decide ((q.queue.filter (Access.isFor .lock)).length ≤ rest.length)) s.port.waiting s →
    ∃ t, exec .lockLevelWriteCompletion s = .next t ∧
      t.visible = ({ s with
        mem := u.mem
        ce := { s.ce with locks := rest }
        rs := { s.rs with completions := s.resultsWith (some c) .ok x } } : State).visible ∧
      ((t.port.get .ce).queue.filter (Access.isFor .lock)).length ≤ rest.length ∧
      ∀ (before after : List Access) (a : Nat) (v : Byte), s.mem.wf = true →
        (s.port.get .ce).queue = before ++ .write .lock a v :: after →
        (∀ y ∈ before, Access.isFor .lock y = false) →
        (after.filter (Access.isFor .lock)).length = rest.length → ¬ s.port.othersMayWrite .ce a →
        t.mem.read a = v ∧ ∀ k, ¬ s.port.mayWrite k → t.mem.read k = s.mem.read k

/-! ### The Sequencer -/

/-- R60, R62, R63, R64, R67: NEXT, PREV and SEQ_SET read the length word (SEQ_SET to NONE ends at its event);
LENGTH_WORD_READ_COMPLETION finds the target from the effective length and the position, or ends the request. A SEQ_SET
that succeeds writes the position's mirror, whatever the position was; the value with its RANGE is free (the model's
choice, log entry 36). The number of waiting requests is written to its mirror at each change (R62). At the end of a
request the Sequencer takes its list on. -/
def Obligations.StepsTakenAndTargets : Prop :=
  (∀ (s : State) (r : StepRequest) (c : Instr), s.nextStep = some r →
    (c = .next ∧ r.kind = .next) ∨ (c = .prev ∧ r.kind = .prev) ∨ (c = .seqSet ∧ ∃ p, r.kind = .set p) →
    ∃ t, exec c s = .next t ∧
      (r.kind = .set 0xFFFF →
        ∃ v : State, t.visible = (takeSteps v).visible ∧ t.port.get .sq = (takeSteps v).port.get .sq ∧
          v.visible = ({ s with
            sq := { s.sq with list := s.sq.list.tail, position := none, job := none }
            rs := { s.rs with completions := s.resultsWith r.cell .ok 0xFFFF } } : State).visible ∧
          waitsNow s v .sq [(0x0101B2, s.sq.list.tail.length), (0x0101B0, 0xFF), (0x0101B1, 0xFF)] []) ∧
      (r.kind ≠ .set 0xFFFF →
        t.visible = ({ s with sq := { s.sq with
          list := s.sq.list.tail, job := some (.lengthRead r) } } : State).visible ∧
        readsNow s t .sq [(0x0101B2, s.sq.list.tail.length)] 0x013000 4)) ∧
  ∀ (s u : State) (r : StepRequest) (e : Nat), s.sq.job = some (.lengthRead r) → u = finishRead .sq s →
    e = min (natLE (u.readBytes .sq)) 1024 →
    ∃ t, exec .lengthWordReadCompletion s = .next t ∧
      (∀ p, r.kind = .set p →
        ∃ v : State, t.visible = (takeSteps v).visible ∧ t.port.get .sq = (takeSteps v).port.get .sq ∧
          v.visible = ({ s with
            mem := u.mem
            sq := { s.sq with job := none, position := if p < e then some p else s.sq.position }
            rs := { s.rs with
              completions := s.resultsWith r.cell (if p < e then .ok else .range)
                (if p < e then p else s.unstated r.cell) } } :
              State).visible ∧
          (p < e → (v.port.get .sq).queue =
            (u.port.get .sq).queue ++ writeAccesses .mirror 0x0101B0 (bytesLE 2 p))) ∧
      (r.kind = .next ∨ r.kind = .prev → e = 0 →
        ∃ v : State, t.visible = (takeSteps v).visible ∧ v.visible = ({ s with
          mem := u.mem
          sq := { s.sq with job := none }
          jw := (journal ⟨.sequence, r.origin, s.ce.level, 0xFF, s.sq.position.getD 0xFFFF, 0xFFFF, 0⟩ s).jw
          rs := { s.rs with completions := s.resultsWith r.cell .empty 0 } } : State).visible) ∧
      (∀ target, e ≠ 0 →
        (s.sq.position = none ∧ (r.kind = .next ∨ r.kind = .prev) ∧ target = 0) ∨
          (∃ p, s.sq.position = some p ∧
            ((r.kind = .next ∧ target = if e ≤ p then e - 1 else if p < e - 1 then p + 1 else e - 1) ∨
              (r.kind = .prev ∧ target = if p = 0 then 0 else if p ≤ e then p - 1 else e - 1))) →
        t.visible = ({ s with
          mem := u.mem, sq := { s.sq with job := some (.stepRead r target) } } : State).visible ∧
        readsNow u t .sq [] (0x013004 + 4 * target) 4)

/-- R42, R65, R66: STEP_READ_COMPLETION. A bad step moves the position and queues nothing; a dropped one changes neither
position nor level; a step whose recall enters the queue moves the position and the current level. Both that move it
write its mirror, whatever it was. FULL carries 0, as for every record dropped at a full action queue. An IDLE engine
takes the recall at its arrival (R45), and at the end of the request the Sequencer takes its list on (R62). -/
def Obligations.StepReadTaken : Prop :=
  ∀ (s u : State) (r : StepRequest) (target level piston note : Nat) (taken : JournalEntry),
    s.sq.job = some (.stepRead r target) → u = finishRead .sq s →
    level = byteAt (u.readBytes .sq) 0 → piston = byteAt (u.readBytes .sq) 1 →
    note = natLE (((u.readBytes .sq).drop 2).take 2) →
    taken = ⟨.sequence, r.origin, level, piston, target, note, 0⟩ →
    ∃ t v, exec .stepReadCompletion s = .next t ∧ t.visible = (takeSteps v).visible ∧
      t.port.get .sq = (takeSteps v).port.get .sq ∧
      (s.desc.header.levels ≤ level ∨ 128 ≤ piston →
        v.visible = ({ s with
          mem := u.mem
          sq := { s.sq with job := none, position := some target }
          jw := (journal ⟨.recallRefused, .sequencer, level, piston, 4, 0, 0⟩
            { s with jw := (journal taken s).jw }).jw
          rs := { s.rs with completions := s.resultsWith r.cell .range target } } : State).visible) ∧
      (s.desc.header.levels ≤ level ∨ 128 ≤ piston ∨ s.ce.queue.length < 8 →
        (v.port.get .sq).queue = (u.port.get .sq).queue ++ writeAccesses .mirror 0x0101B0 (bytesLE 2 target)) ∧
      (level < s.desc.header.levels → piston < 128 → 8 ≤ s.ce.queue.length →
        v.visible = ({ s with
          mem := u.mem
          sq := { s.sq with job := none }
          jw := (journal ⟨.actionOverrun, .sequencer, level, piston, 1, 0, 0⟩ s).jw
          rs := { s.rs with completions := s.resultsWith r.cell .full 0 } } : State).visible) ∧
      (level < s.desc.header.levels → piston < 128 → s.ce.queue.length < 8 →
        ∃ w : State,
          v.visible = ({ takeActions w with sq := { (takeActions w).sq with job := none } } : State).visible ∧
          t.port.get .ce = (takeActions w).port.get .ce ∧
          waitsNow u w .ce ((0x0101A3, s.ce.queue.length + 1) ::
            if level = s.ce.level then [] else [(0x0101A0, level)]) [] ∧
          w.visible = ({ s with
            mem := u.mem
            sq := { s.sq with position := some target }
            ce := { s.ce with
              queue := s.ce.queue ++ [⟨.recall level piston, .sequencer, r.cell⟩]
              level := level }
            jw := if level = s.ce.level then (journal taken s).jw
              else (journal ⟨.level, r.origin, level, 0xFF, s.ce.level, 0, 0⟩
                { s with jw := (journal taken s).jw }).jw } : State).visible)

/-! ### The Crescendo Unit -/

/-- R71: the filter. -/
def Obligations.FilterStep : Prop :=
  ∀ k f raw : Nat, k ≤ 4 → raw ≤ 4095 →
    Signal.none.sampled k raw = raw * 16 ∧ (Signal.held f).sampled k raw = raw * 16 ∧
    (f ≤ 65520 →
      ((Signal.live f).sampled k raw : Int) = f + ((raw : Int) * 16 - f).tdiv (2 ^ k) ∧
      (k = 0 → (Signal.live f).sampled k raw = raw * 16) ∧
      ((Signal.live f).sampled k raw = f ↔ ((raw : Int) * 16 - f).natAbs < 2 ^ k) ∧
      2 ^ k - 1 < 16 ∧
      min f (raw * 16) ≤ (Signal.live f).sampled k raw ∧ (Signal.live f).sampled k raw ≤ max f (raw * 16) ∧
      (Signal.live f).sampled k raw ≤ 65520) ∧
    ((Signal.live 19).sampled 2 1 = 19)

/-- R73: the zones of a program's stages. R74: the effective hysteresis keeps both ends of the travel in reach. R75: the
stage rule. -/
def Obligations.StageZones : Prop :=
  ∀ stages : Nat, 1 ≤ stages → stages ≤ 60 →
    boundary stages 0 = 0 ∧ (∀ j, 1 ≤ j → j ≤ stages → boundary stages j = j * 1024 / (stages + 1)) ∧
    (∀ x, stageAt stages x ≤ stages ∧ boundary stages (stageAt stages x) ≤ min x 1024 ∧
      ∀ j, j ≤ stages → boundary stages j ≤ min x 1024 → j ≤ stageAt stages x) ∧
    stageAt stages 0 = 0 ∧ stageAt stages 1024 = stages ∧
    zoneWidth stages = 1024 / (stages + 1) ∧
    (∀ j, j < stages → boundary stages (j + 1) - boundary stages j = zoneWidth stages ∨
      boundary stages (j + 1) - boundary stages j = zoneWidth stages + 1) ∧
    (1024 - boundary stages stages = zoneWidth stages ∨ 1024 - boundary stages stages = zoneWidth stages + 1) ∧
    (∀ j, j < stages → boundary stages (j + 1) - boundary stages j ≤ 1024 - boundary stages stages) ∧
    boundary 1 1 = 512 ∧ zoneWidth 60 = 16 ∧
    ∀ h he, he = effectiveHysteresis h stages →
      he = min h (zoneWidth stages / 2) ∧ boundary stages 1 = zoneWidth stages ∧ he < zoneWidth stages ∧
      stageAt stages (1024 - he) = stages ∧ stageAt stages he = 0 ∧
      ∀ c q, c ≤ stages → q ≤ 1024 →
        stageRule stages he 1024 c = stages ∧ stageRule stages he 0 c = 0 ∧ stageRule stages he q c ≤ stages ∧
        (c < stageAt stages (q - he) → stageRule stages he q c = stageAt stages (q - he)) ∧
        (stageAt stages (q + he) < c → stageRule stages he q c = stageAt stages (q + he)) ∧
        (stageAt stages (q - he) ≤ c → c ≤ stageAt stages (q + he) → stageRule stages he q c = c)

/-- R69, R70, R72, R75, R81, R82: a shoe sample, and CRESC_CALIBRATE, which marks the mirrors stale whatever changed
(R81, R83). -/
def Obligations.ShoeAndCalibration : Prop :=
  (∀ lo hi f : Nat, lo + 256 ≤ hi →
    positionOf lo hi f ≤ 1024 ∧ (f ≤ 16 * lo → positionOf lo hi f = 0) ∧
    (16 * hi ≤ f → positionOf lo hi f = 1024) ∧
    (16 * lo ≤ f → positionOf lo hi f = min ((f - 16 * lo) * 1024 / (16 * (hi - lo))) 1024) ∧
    positionOf lo hi (f + 16) ≤ positionOf lo hi f + 4) ∧
  (∀ (s t : State) (valid : Bool) (raw : Nat), t = shoeSample valid raw s →
    (valid = false ∨ 4095 < raw → t = s) ∧
    (valid = true → raw ≤ 4095 → ∀ f, f = s.cu.signal.sampled s.desc.header.filterShift raw →
      t.cu = { s.cu with
        signal := .live f, q := positionOf s.cu.lo s.cu.hi f, stage := s.ruledStage (positionOf s.cu.lo s.cu.hi f) } ∧
      t.ru.ri = s.ru.ri ∧ t.ru.tutti = s.ru.tutti ∧ SpeakingIsUnion t ∧ Same [.cu, .ru] s t)) ∧
  ∀ (s u : State) (c a0 a1 : Nat) (result : RequestResult → Nat → Requests),
    s.rs.sweep = .accepting c ⟨.crescCalibrate, a0, a1⟩ → u = finishWrite .rs .accept s →
    (∀ r v, result r v = Requests.movedOn { s.rs with completions := s.resultsWith (some c) r v } c) →
    ∃ t, exec .crescCalibrate s = .next t ∧
      (1 < a0 → t.visible = ({ s with mem := u.mem, rs := result .range 0 } : State).visible) ∧
      (a0 ≤ 1 → s.cu.signal = .none →
        t.visible = ({ s with mem := u.mem, rs := result .noSignal 0 } : State).visible) ∧
      (∀ f, a0 ≤ 1 → s.cu.signal = .live f ∨ s.cu.signal = .held f →
        ((a0 = 0 ∧ s.cu.hi < f / 16 + 256) ∨ (a0 = 1 ∧ f / 16 < s.cu.lo + 256) →
          t.visible = ({ s with mem := u.mem, rs := result .range (f / 16) } : State).visible) ∧
        ((a0 = 0 ∧ f / 16 + 256 ≤ s.cu.hi) ∨ (a0 = 1 ∧ s.cu.lo + 256 ≤ f / 16) →
          ∀ lo hi, lo = (if a0 = 0 then f / 16 else s.cu.lo) → hi = (if a0 = 0 then s.cu.hi else f / 16) →
            t.visible.cu = { s.visible.cu with
              lo := lo, hi := hi, q := positionOf lo hi f, stage := s.ruledStage (positionOf lo hi f) } ∧
            t.ru.ri = s.ru.ri ∧ t.ru.tutti = s.ru.tutti ∧ SpeakingIsUnion t ∧ t.rs = result .ok (f / 16) ∧
            t.jw = (journal ⟨.calibrated, .consoleProcessor, s.ce.level, 0xFF, a0, f / 16, 0⟩ s).jw ∧
            t.mem = u.mem ∧ Same [.mem, .cu, .ru, .jw, .rs] s.visible t.visible ∧
            (s.inReset = false → s.cu.mirror.isMarked t.cu.mirror t.crescendoValues)))

/-- R76, R78, R79, R82: CRESC_PROGRAM starts a program load, or is refused RANGE or BUSY (RANGE where both hold, the
model's choice, log entry 40); PROGRAM_READ_COMPLETION checks the field read, reads on at the place of the next, ends
the load RANGE, or makes the program active. R76: what a field makes of the reading, by what the field is: the stage
count, a stop count, or a stop number. -/
def Obligations.ProgramLoadChecked : Prop :=
  (∀ (s u : State) (c p a1 : Nat), s.rs.sweep = .accepting c ⟨.crescProgram, p, a1⟩ →
    u = finishWrite .rs .accept s →
    ∃ t, exec .crescProgram s = .next t ∧
      (∀ r, (3 < p ∧ r = .range) ∨ (p ≤ 3 ∧ s.cu.loading ≠ none ∧ r = .busy) →
        t.visible = ({ s with
          mem := u.mem
          rs := Requests.movedOn { s.rs with completions := s.resultsWith (some c) r 0 } c } : State).visible) ∧
      (p ≤ 3 → s.cu.loading = none →
        t.visible = ({ s with
          mem := u.mem
          cu := { s.cu with loading := some ⟨p, c, {}⟩ }
          rs := s.rs.movedOn c } : State).visible ∧
        (s.cu.mirror.full = false → ∃ later, (∀ x ∈ later, Access.isFor .mirror x = true) ∧ t.port.get .cu =
          ⟨(u.port.get .cu).queue ++ readAccesses (0x015000 + 4096 * p) 2 ++ later, []⟩))) ∧
  (∀ (s u : State) (l : ProgramLoad) (out : ProgramStep), s.cu.loading = some l → u = finishRead .cu s →
    out = l.read.take s.desc.header.stops (natLE (u.readBytes .cu)) →
    ∃ t, exec .programReadCompletion s = .next t ∧
      (∀ j, out = .failed j →
        t.visible = ({ s with
          mem := u.mem
          cu := { s.cu with loading := none }
          rs := { s.rs with completions := s.resultsWith (some l.cell) .range j } } : State).visible) ∧
      (∀ read, out = .more read →
        t.visible = ({ s with mem := u.mem, cu := { s.cu with loading := some { l with read := read } } } : State).visible ∧
        (s.cu.mirror.full = false → ∃ later, (∀ x ∈ later, Access.isFor .mirror x = true) ∧ t.port.get .cu =
          ⟨(u.port.get .cu).queue ++ readAccesses (0x015000 + 4096 * l.program + read.offset) 2 ++ later, []⟩)) ∧
      (∀ stages stage, out = .whole stages →
        stage = (if s.cu.signal = .none then 0 else stageAt stages.length s.cu.q) →
        t.visible.cu = { s.visible.cu with
          program := some l.program, stageCount := stages.length, images := t.cu.images, stage := stage
          loading := none } ∧
        t.cu.images.length = stages.length + 1 ∧
        (∀ j, j ≤ stages.length → ∀ n, n < 384 →
          ((t.cu.images.getD j 0).getLsbD n = true ↔ ∃ record ∈ stages.take j, n ∈ record)) ∧
        t.ru.ri = s.ru.ri ∧ t.ru.tutti = s.ru.tutti ∧ SpeakingIsUnion t ∧
        t.jw = (journal ⟨.crescProgram, .consoleProcessor, s.ce.level, 0xFF, l.program, stage, 0⟩ s).jw ∧
        t.rs = { s.rs with completions := s.resultsWith (some l.cell) .ok stage } ∧ t.mem = u.mem ∧
        Same [.mem, .cu, .ru, .jw, .rs] s.visible t.visible)) ∧
  ∀ (n v : Nat) (r : ProgramRead) (endsStage : List Nat → ProgramStep),
    (∀ stage, endsStage stage =
      if (r.stages ++ [stage]).length = r.total then .whole (r.stages ++ [stage])
      else .more ⟨.stopCount, r.offset + 2, r.total, r.stages ++ [stage], []⟩) →
    (r.field = .stageCount →
      r.take n v = if 1 ≤ v ∧ v ≤ 60 then .more ⟨.stopCount, r.offset + 2, v, r.stages, r.current⟩ else .failed 0) ∧
    (r.field = .stopCount →
      r.take n v = if 32 < v then .failed (r.stages.length + 1)
        else if v = 0 then endsStage [] else .more ⟨.stopNumber v, r.offset + 2, r.total, r.stages, []⟩) ∧
    (∀ left, r.field = .stopNumber left →
      r.take n v = if n ≤ v then .failed (r.stages.length + 1)
        else if left ≤ 1 then endsStage (r.current ++ [v])
        else .more ⟨.stopNumber (left - 1), r.offset + 2, r.total, r.stages, r.current ++ [v]⟩)

/-! ### Contacts and presses -/

/-- R87: the debounce rule. R90: the armed flag of a press contact. -/
def Obligations.DebounceRule : Prop :=
  ∀ (role : ContactRole) (c : Contact), 1 ≤ role.depth → c.run < role.depth →
    (debounce role c c.closed = ⟨{ c with run := 0 }, false, false⟩) ∧
    (c.run < role.depth - 1 → debounce role c (!c.closed) = ⟨{ c with run := c.run + 1 }, false, false⟩) ∧
    (c.run = role.depth - 1 → ∃ press, debounce role c (!c.closed) =
      ⟨⟨!c.closed, 0, role.isPress && c.closed⟩, true, press⟩ ∧
        (press = true ↔ role.isPress = true ∧ c.closed = false ∧ c.armed = true)) ∧
    (c.run = 0 →
      (∀ n, n < role.depth → debounceRun role c (List.replicate n (!c.closed)) = { c with run := n }) ∧
      (debounceRun role c (List.replicate role.depth (!c.closed))).closed = !c.closed ∧
      (debounceRun role c (List.replicate role.depth (!c.closed))).run = 0 ∧
      (2 ≤ role.depth → ∀ n, (debounceRun role c ((List.range n).map (fun k =>
        if k % 2 = 0 then !c.closed else c.closed))).closed = c.closed))

/-- R85, R86, R87, R90, R91, R94: a sample debounces every watched contact of its board and touches no other board's.
What it accepts is then taken in order: the hand moves of the sense contacts in ascending contact index, and after them
the presses of the press contacts, piston contacts and tablets together, in ascending contact index, each on the state
that the one before left, with SET as the contacts stand after the debounce. Where it accepts no change, nothing else
happens; where it accepts the change of one contact, that is one hand move, or one press where the contact was armed and
closed. That the hand moves of one sample are taken in ascending contact index is the model's choice (DESIGN CHOICE, log
entry 16): R91 has them taken in either order. -/
def Obligations.SampleDebouncesContacts : Prop :=
  ∀ (s t u : State) (i : Fin 16) (levels : BitVec 64) (out : Fin 64 → ContactRole → Debounced),
    t = contactSample i levels s → u = { s with cs := { s.cs with contacts := t.cs.contacts } } →
    (∀ k r, out k r = debounce r s.cs.contacts[i][k] (levels.getLsbD k.val)) →
    (∀ j : Fin 16, j ≠ i → t.cs.contacts[j] = s.cs.contacts[j]) ∧
    (∀ k : Fin 64, (s.desc.role i k.val = none → t.cs.contacts[i][k] = s.cs.contacts[i][k]) ∧
      ∀ r, s.desc.role i k.val = some r → t.cs.contacts[i][k] = (out k r).contact) ∧
    (∀ (moves : List (Nat × Bool)) (pressed : List ContactRole),
      moves = (List.finRange 64).filterMap (fun k =>
        match s.desc.role i k.val with
        | some (.sense n depth) =>
          if (out k (.sense n depth)).accepted then some (n, levels.getLsbD k.val) else none
        | _ => none) →
      pressed = (List.finRange 64).filterMap (fun k =>
        match s.desc.role i k.val with
        | some r => if (out k r).press then some r else none
        | none => none) →
      t = pressed.foldl (fun x r => pressContact u.setHeld r x) (moves.foldl (fun x m => handMove m.1 m.2 x) u)) ∧
    ((∀ (k : Fin 64) r, s.desc.role i k.val = some r → (out k r).accepted = false) → t = u) ∧
    ∀ (k : Fin 64) (r : ContactRole), s.desc.role i k.val = some r → (out k r).accepted = true →
      (∀ (j : Fin 64) q, j ≠ k → s.desc.role i j.val = some q → (out j q).accepted = false) →
      (∀ n depth, r = .sense n depth → t = handMove n (levels.getLsbD k.val) u) ∧
      (r.isPress = true → (out k r).press = true → t = pressContact u.setHeld r u) ∧
      (r.isPress = true → (out k r).press = false → t = u)

/-- R44, R45, R62, R92, R93, R95: when SET is held, what a press queues or does with and without it, and what becomes of
a record offered to the action queue or of a request offered to the step-request list: it joins the tail, or is dropped
where 8 or 4 wait, and the engine or the Sequencer, where it is IDLE in RUNNING, takes the head at the arrival (R45,
R62). A take is what the command of the head does, and an engine that is not IDLE, or has nothing queued, takes nothing.
A level piston writes the level's mirror, whatever the level was. FULL of the action queue carries 0, as in the example
of one sweep; the value with FULL of the step-request list is free (the model's choice, log entry 36). -/
def Obligations.PressesDecoded : Prop :=
  (∀ s : State, s.setHeld = true ↔ ∃ p ∈ s.desc.pistons, p.function = .set ∧
    s.isClosed (boardPlace p.board) p.contact = true ∧
    ((s.lc.boards[boardPlace p.board]).state = .present ∨ (s.lc.boards[boardPlace p.board]).state = .suspect)) ∧
  (∀ (s : State) (held : Bool) (p : PistonRec) (k : ActionKind),
    (∃ index, ((p.function = .general index) ∨ (∃ d n, p.function = .divisional d n ∧ index = 48 + 10 * d + n)) ∧
        k = (if held then .capture s.ce.level index else .recall s.ce.level index)) ∨
      (p.function = .cancel ∧ k = .cancel) ∨ (p.function = .undo ∧ k = .undo) ∨
      (p.function = .tutti ∧ k = if held then .tuttiCapture else .tutti .toggle) ∨
      (∃ n, p.function = .reversible n ∧ k = .reverse n) →
    pressContact held (.piston p) s = offerAction ⟨k, p.origin, none⟩ s) ∧
  (∀ (s : State) (held : Bool) (n depth : Nat),
    pressContact held (.tablet n depth) s = offerAction ⟨.reverse n, .thumb, none⟩ s) ∧
  (∀ (s : State) (held : Bool) (p : PistonRec),
    (p.function = .set → pressContact held (.piston p) s = s) ∧
    (∀ k, (p.function = .next ∧ k = .next) ∨ (p.function = .prev ∧ k = .prev) →
      pressContact held (.piston p) s = offerStep ⟨k, p.origin, none⟩ s) ∧
    (∀ v, (p.function = .levelUp ∧ v = if s.ce.level + 1 = s.desc.header.levels then 0 else s.ce.level + 1) ∨
        (p.function = .levelDown ∧ v = if s.ce.level = 0 then s.desc.header.levels - 1 else s.ce.level - 1) →
      (pressContact held (.piston p) s).visible = ({ s with
        ce := { s.ce with level := v }
        jw := (journal ⟨.level, p.origin, v, 0xFF, s.ce.level, 0, 0⟩ s).jw } : State).visible ∧
      waitsNow s (pressContact held (.piston p) s) .ce [(0x0101A0, v)] [])) ∧
  (∀ (s : State) (a : Action), ∃ w, offerAction a s = takeActions w ∧
    (s.ce.queue.length < 8 →
      waitsNow s w .ce [(0x0101A3, s.ce.queue.length + 1)] [] ∧
      w.visible = ({ s with ce := { s.ce with queue := s.ce.queue ++ [a] } } : State).visible) ∧
    (8 ≤ s.ce.queue.length →
      w.port.get .ce = s.port.get .ce ∧ w.visible = ({ s with
        jw := (journal ⟨.actionOverrun, a.origin, a.kind.level.getD 0xFF, a.kind.piston.getD 0xFF, a.kind.code,
          a.kind.stop.getD 0, 0⟩ s).jw
        rs := { s.rs with completions := s.resultsWith a.cell .full 0 } } : State).visible)) ∧
  (∀ (s : State) (r : StepRequest), ∃ w, offerStep r s = takeSteps w ∧
    (s.sq.list.length < 4 →
      waitsNow s w .sq [(0x0101B2, s.sq.list.length + 1)] [] ∧
      w.visible = ({ s with sq := { s.sq with list := s.sq.list ++ [r] } } : State).visible) ∧
    (4 ≤ s.sq.list.length →
      w.port.get .sq = s.port.get .sq ∧ w.visible = ({ s with
        jw := if r.kind = .next ∨ r.kind = .prev then
          (journal ⟨.sequence, r.origin, s.ce.level, 0xFF, s.sq.position.getD 0xFFFF, 0xFFFF, 0⟩ s).jw else s.jw
        rs := { s.rs with completions := s.resultsWith r.cell .full (s.unstated r.cell) } } : State).visible)) ∧
  (∀ s : State,
    (s.part ≠ .running ∨ s.ce.job ≠ none ∨ s.ce.queue = [] → takeActions s = s) ∧
    ∀ a rest, s.part = .running → s.ce.job = none → s.ce.queue = a :: rest →
      ∃ v, exec a.kind.command s = .next v ∧ (takeActions s).visible = v.visible ∧
        (takeActions s).port.get .ce = v.port.get .ce ∧
        v.ce.queue.length ≤ rest.length ∧ (v.ce.job = none → v.ce.queue = [])) ∧
  ∀ s : State,
    (s.part ≠ .running ∨ s.sq.job ≠ none ∨ s.sq.list = [] → takeSteps s = s) ∧
    ∀ r rest, s.part = .running → s.sq.job = none → s.sq.list = r :: rest →
      ∃ v, exec r.kind.command s = .next v ∧ (takeSteps s).visible = v.visible ∧
        (takeSteps s).port.get .sq = v.port.get .sq ∧
        v.sq.list.length ≤ rest.length ∧ (v.sq.job = none → v.sq.list = [])

/-! ### The jamb link -/

/-- R119, R121, R123, R124, R125, R127, R133, R137: ROUND_START sends the first request of a round, POLL or, in a round
whose number is a multiple of 16, CENSUS to a board that is ABSENT, MISMATCH or UNKNOWN, or ends a round that addresses
no board; after an exchange the pass goes to the next board it addresses, or the round ends: the CLEAR_COUNTERS that
wait are completed, a sweep is triggered, and a round that has overrun its period is followed at once by the next.
REQUEST_FRAME_SENT opens the reply window, and the board that received the frame applies its bits, starts its commands
where the toggle is new, and has its reply formed. That ROUND_START takes the clock to the due time is the model's
reading (DEDUCED, log entry 4), and so is the order of a frame whose exchange has been ended before a later one
(DEDUCED, log entry 21). That the waiting CLEAR_COUNTERS are completed in the order in which they came, and before the
sweep is triggered, is its choice (DESIGN CHOICE, log entry 16). -/
def Obligations.RoundsAndFrames : Prop :=
  (∀ (s : State) (now : BitVec 32), s.lc.inRound = false → s.isNextDue s.lc.due = true →
    now = s.clock + BitVec.ofNat 32 (ahead s.clock s.lc.due) →
    (s.part = .running →
      ∃ t, exec .roundStart s = .next t ∧ t.clock = now ∧ t.lc.round = s.lc.round + 1 ∧
        t.lc.due = now + BitVec.ofNat 32 s.desc.header.roundPeriod ∧
        (∀ i : Fin 16, (∀ j < i, s.silent (s.lc.round + 1) j) → ¬ s.silent (s.lc.round + 1) i →
          t.lc.inRound = true ∧ Same [.clock, .lc] s.visible t.visible ∧
          (s.lc.boards[i].state = .present ∨ s.lc.boards[i].state = .suspect → PollSent s t i) ∧
          (s.lc.boards[i].state ≠ .present → s.lc.boards[i].state ≠ .suspect →
            t.lc.boards = s.lc.boards ∧ t.lc.exchange = .sending i .census)) ∧
        ((∀ i, s.silent (s.lc.round + 1) i) →
          t.lc.inRound = false ∧ t.lc.boards = s.lc.boards ∧ t.lc.exchange = s.lc.exchange ∧ t.lc.clears = [] ∧
          t.rs.completions = s.rs.completions ++ s.lc.clears.map (fun x => ⟨x.1, .ok, x.2, now⟩) ∧
          t.rs.sweep = (if s.rs.sweep = .idle then .stateRead 0 else s.rs.sweep) ∧
          t.rs.scanPending = (s.rs.scanPending || s.rs.sweep != .idle) ∧
          Same [.clock, .lc, .rs] s.visible t.visible)) ∧
    (s.part = .census → ∀ i : Fin 16, (s.desc.board i).kind ≠ .none → s.lc.boards[i].state = .unknown →
      (∀ j < i, (s.desc.board j).kind = .none ∨ s.lc.boards[j].state ≠ .unknown) →
      ∃ t, exec .roundStart s = .next t ∧ t.clock = now ∧ t.lc.inRound = true ∧ t.lc.exchange = .sending i .census ∧
        t.lc.boards = s.lc.boards ∧
        t.lc.due = now + BitVec.ofNat 32 s.desc.header.roundPeriod ∧ Same [.clock, .lc] s.visible t.visible)) ∧
  (∀ (s t : State) (i : Fin 16), t = passOn i s →
    (s.part = .running →
      (∀ j : Fin 16, i < j → (∀ k, i < k → k < j → s.silent s.lc.round k) → ¬ s.silent s.lc.round j →
        t = { s with lc := { s.lc with boards := t.lc.boards, exchange := t.lc.exchange } } ∧
        (s.lc.boards[j].state = .present ∨ s.lc.boards[j].state = .suspect → PollSent s t j) ∧
        (s.lc.boards[j].state ≠ .present → s.lc.boards[j].state ≠ .suspect →
          t.lc.boards = s.lc.boards ∧ t.lc.exchange = .sending j .census)) ∧
      ((∀ j, i < j → s.silent s.lc.round j) →
        ∃ x, x.visible = (triggerSweep { s with
            lc := { s.lc with inRound := false, clears := [] }
            rs := { s.rs with completions :=
              s.rs.completions ++ s.lc.clears.map (fun c => ⟨c.1, .ok, c.2, s.clock⟩) } }).visible ∧
          (ahead s.clock s.lc.due ≠ 0 → t = x) ∧
          (ahead s.clock s.lc.due = 0 → ∀ v, exec .roundStart x = .next v → t.visible = v.visible))) ∧
    (s.part = .census →
      (∀ j : Fin 16, i < j → (∀ k, i < k → k < j → (s.desc.board k).kind = .none ∨ s.lc.boards[k].state ≠ .unknown) →
        (s.desc.board j).kind ≠ .none → s.lc.boards[j].state = .unknown →
        t = { s with lc := { s.lc with exchange := .sending j .census } }) ∧
      ((∀ j, i < j → (s.desc.board j).kind = .none ∨ s.lc.boards[j].state ≠ .unknown) →
        ∃ x, x = closeCensusRound s ∧
          (x.lc.inRound = true ∨ ahead x.clock x.lc.due ≠ 0 → t = x) ∧
          (x.lc.inRound = false → ahead x.clock x.lc.due = 0 →
            ∀ v, exec .roundStart x = .next v → t.visible = v.visible)))) ∧
  ∀ (s : State) (i : Fin 16) (frame : LinkFrame) (received : Bool) (rest : List (Fin 16 × LinkFrame)),
    (s.lc.draining = [] ∧ rest = [] ∧ s.lc.exchange = .sending i frame) ∨ s.lc.draining = (i, frame) :: rest →
    ∃ t, exec (.requestFrameSent received) s = .next t ∧ Same [.lc, .line] s.visible t.visible ∧
      t.lc.draining = rest ∧ t.lc.boards = s.lc.boards ∧
      (s.lc.draining = [] → t.lc.exchange = .window i frame) ∧
      (s.lc.draining ≠ [] → t.lc.exchange = s.lc.exchange) ∧
      (∀ j : Fin 16, j ≠ i ∨ received = false → t.line[j] = s.line[j]) ∧
      (received = true →
        (frame = .census → t.line[i] = { s.line[i] with
          started := [], reply := some (.census s.line[i].lastToggle) }) ∧
        (∀ toggle commands lamps, frame = .pollJamb toggle commands lamps →
          t.line[i] = { s.line[i] with
            lastToggle := toggle, lamps := lamps
            started := if toggle = s.line[i].lastToggle then [] else commands
            reply := some (.poll toggle) }) ∧
        (∀ toggle bits, frame = .pollChest toggle bits →
          t.line[i] = { s.line[i] with
            lastToggle := toggle, chest := bits, started := [], reply := some (.poll toggle) }))

/-- R20, R62, R123, R124, R125, R144, R148, R156: CENSUS goes on while a described board is UNKNOWN, and otherwise the
end of a census round is the entry to RUNNING: the clock is zeroed once, STARTED is journaled with the load cause, STATE
is raised, polling round 1 starts with the POLL request of the first board that takes part, or ends at once with a sweep
where none does, the engine reads the tutti slot, the Sequencer takes its list (R62), and a held reload cell is
completed OK. The place of the reload cell's result after those of the Sequencer is the model's choice (log entry 16).
-/
def Obligations.EntryToRunning : Prop :=
  ∀ (s t : State) (now : BitVec 32), t = closeCensusRound s → s.part = .census → s.lc.clears = [] →
    now = (if s.clockZeroed then s.clock else 0) →
    ((∃ i : Fin 16, (s.desc.board i).kind ≠ .none ∧ s.lc.boards[i].state = .unknown) →
      t = { s with lc := { s.lc with inRound := false } }) ∧
    ((∀ i : Fin 16, (s.desc.board i).kind ≠ .none → s.lc.boards[i].state ≠ .unknown) →
      t.part = .running ∧ t.hasCause .state = true ∧ t.clock = now ∧ t.clockZeroed = true ∧
      t.lc = { s.lc with
        round := 1, due := now + BitVec.ofNat 32 s.desc.header.roundPeriod
        inRound := t.lc.inRound, exchange := t.lc.exchange, boards := t.lc.boards } ∧
      (∀ i : Fin 16, (∀ j < i, s.silent 1 j) → ¬ s.silent 1 i →
        t.lc.inRound = true ∧ PollSent s t i ∧ t.rs.sweep = s.rs.sweep ∧ t.rs.scanPending = s.rs.scanPending) ∧
      ((∀ i, s.silent 1 i) →
        t.lc.inRound = false ∧ t.lc.exchange = s.lc.exchange ∧ t.lc.boards = s.lc.boards ∧
        t.rs.sweep = (if s.rs.sweep = .idle then .stateRead 0 else s.rs.sweep) ∧
        t.rs.scanPending = (s.rs.scanPending || s.rs.sweep != .idle)) ∧
      t.ce = { s.ce with job := some .runningTuttiRead } ∧
      readsNow s t .ce (if s.engineState = .reading then [] else [(0x0101A5, 1)]) 0x019100 56 ∧
      (∀ cause code, (cause, code) ∈ [(LoadCause.hard, 0), (.soft, 1), (.reload, 2)] → s.dl.loadCause = some cause →
        t.jw = (journal { kind := .started, argA := code } { s with clock := now }).jw) ∧
      t.rs.reloadCell = none ∧ t.rs.outstanding = s.rs.outstanding ∧
      (∀ x : State, x = takeSteps { s with part := .running, clock := now } →
        t.sq = x.sq ∧ t.port.get .sq = x.port.get .sq ∧
        t.rs.completions = x.rs.completions ++ s.rs.reloadCell.toList.map (fun c => ⟨c, .ok, 0, now⟩)) ∧
      Same [.part, .cause, .clock, .clockZeroed, .ce, .sq, .lc, .rs, .jw] s.visible t.visible)

/-- R24, R25, R130: a chest bit is 1 exactly where some stop mapped to it has SI set, a lamp bit exactly where some stop
mapped to it has RI set; bits that the record does not count are 0. -/
def Obligations.FrameBitsFollowImages : Prop :=
  ∀ (address count k : Nat) (image : StopImage) (stops : List StopRec), stops.length ≤ 384 →
    ((lampBits address count image 0 stops).getLsbD k = true ↔
      k < 32 ∧ k < count ∧ ∃ n r, stops[n]? = some r ∧ r.board = address ∧ r.lamp = some k ∧
        image.getLsbD n = true) ∧
    ((chestBits address count image 0 stops).getLsbD k = true ↔
      k < 128 ∧ k < count ∧ ∃ n r, stops[n]? = some r ∧ r.chest = some (address, k) ∧ image.getLsbD n = true)

/-- R70, R106, R113, R119 to R123, R126, R128, R129, R131, R132, R133: how an exchange ends, and what is handed on. A
miss or a bad reply advances its counter, which marks the mirrors stale at 255 too, and the board's state; the failure
that makes a board ABSENT empties its list and hands its loss to the Motion Scheduler and, for the shoe board, to the
Crescendo Unit. An acknowledging POLL reply takes the frame's commands from the list, flips the toggle, starts the
commands' pulses, makes a SUSPECT board PRESENT, and hands on the contact sample and the shoe sample, in this order. A
CENSUS reply makes the board PRESENT, adopted or resynchronised, or MISMATCH, lost. Every change of state is journaled
BOARD and recorded for BRD (log entry 14). Then the pass goes on (RoundsAndFrames says how). The reply that R121 has a
board send to a frame is judged to acknowledge it; a CHEST board's reply carries 0 in the contact levels and the shoe
fields (R119). A CENSUS reply to a board that is PRESENT or SUSPECT changes nothing (DEDUCED, log entry 28), and its
shoe flag is set where the byte is nonzero (DEDUCED, log entry 19). -/
def Obligations.ExchangesEnd : Prop :=
  (∀ (s : State) (i : Fin 16) (frame : LinkFrame) (c : Instr) (missed : Bool) (b b' : BoardLink),
    s.lc.exchange = .window i frame → b = s.lc.boards[i] →
    (c = .replyTimeout ∧ missed = true) ∨ (c = .shortReply ∧ missed = false) ∨
      (∃ bytes, c = .replyReceived bytes ∧ missed = false ∧
        judgeReply i (s.desc.board i) b.toggle frame bytes = .bad) →
    b' = { b with
      misses := if missed then min (b.misses + 1) (max b.misses 255) else b.misses
      bads := if missed then b.bads else min (b.bads + 1) (max b.bads 255) } →
    ∃ t w, exec c s = .next t ∧ t.visible = (passOn i w).visible ∧
      (s.inReset = false → s.lc.mirror.isMarked t.lc.mirror t.linkValues) ∧
      t.lc.boards[i].misses = b'.misses ∧ t.lc.boards[i].bads = b'.bads ∧ t.lc.boards[i].toggle = b.toggle ∧
      (w.lc.boards[i].state ≠ b.state → BoardChangeRecorded s t) ∧
      (frame ≠ .census →
        (b.state = .present → w.visible = ((s.exchanged i { b' with state := .suspect, missRun := 1 }).withBoardEntry i
          .present .suspect).visible) ∧
        (b.state = .suspect → b.missRun + 1 < 3 →
          w.visible = (s.exchanged i { b' with missRun := b.missRun + 1 }).visible) ∧
        (b.state = .suspect → 3 ≤ b.missRun + 1 →
          ∃ z : State, w = z.losing i ∧ z.visible = ((s.exchanged i { b' with
            state := .absent, missRun := b.missRun + 1, outgoing := [], openFrame := none }).withBoardEntry i
              .suspect .absent).visible) ∧
        (b.state ≠ .present → b.state ≠ .suspect → w.visible = (s.exchanged i b').visible)) ∧
      (frame = .census →
        (b.state = .unknown → b.attempts + 1 < 3 →
          w.visible = (s.exchanged i { b' with attempts := b.attempts + 1 }).visible) ∧
        (b.state = .unknown → 3 ≤ b.attempts + 1 →
          ∃ z : State, w = z.losing i ∧ z.visible = ((s.exchanged i { b' with
            state := .absent, attempts := b.attempts + 1, outgoing := [], openFrame := none }).withBoardEntry i
              .unknown .absent).visible) ∧
        (b.state ≠ .unknown → w.visible = (s.exchanged i b').visible))) ∧
  (∀ (s : State) (i : Fin 16) (frame : LinkFrame) (bytes : List Byte) (r : PollReply) (b : BoardLink)
      (commands : List CoilCommand),
    s.lc.exchange = .window i frame → b = s.lc.boards[i] →
    judgeReply i (s.desc.board i) b.toggle frame bytes = .poll r →
    commands = (match b.openFrame with
      | some o => o.commands
      | none => []) →
    ∃ t, ∃ y z : State, exec (.replyReceived bytes) s = .next t ∧
      z.visible = (startPulses commands (s.exchanged i { b with
        outgoing := b.outgoing.drop commands.length, toggle := !b.toggle, openFrame := none, missRun := 0 })).visible ∧
      (b.state ≠ .suspect → y.visible = z.visible) ∧
      (b.state = .suspect →
        y.visible = ((z.exchanged i { z.lc.boards[i] with state := .present }).withBoardEntry i
          .suspect .present).visible ∧
        BoardChangeRecorded s t) ∧
      (∀ contacts shoes : State → State,
        contacts = (fun x => if (s.desc.board i).kind = .jamb then contactSample i r.levels x else x) →
        shoes = (fun x => if (s.desc.board i).kind = .jamb ∧ (s.desc.board i).shoe = true then
          shoeSample r.shoeValid r.shoe x else x) →
        t.visible = (passOn i (shoes (contacts y))).visible)) ∧
  (∀ (s : State) (commands : List CoilCommand),
    startPulses commands s = examineDispatch { s with ms := { s.ms with queue := s.ms.queue.map (fun e =>
      if e.state = .sent ∧ e.stop ∈ commands.map CoilCommand.stop then
        { e with state := .pulsing (s.clock + BitVec.ofNat 32 (s.desc.stop e.stop).pulse) } else e) } }) ∧
  (∀ (s : State) (i : Fin 16) (bytes : List Byte) (r : CensusReply) (rec : BoardRec) (why : MismatchReason)
      (b b' : BoardLink),
    s.lc.exchange = .window i .census → rec = s.desc.board i → b = s.lc.boards[i] →
    judgeReply i rec b.toggle .census bytes = .census r →
    why = (if r.kind ≠ rec.kind.code then .kind
      else if (rec.kind = .jamb ∧ (r.contacts < rec.contacts ∨ r.coils < rec.coils ∨ r.lamps < rec.lamps)) ∨
        (rec.kind = .chest ∧ r.chestBits < rec.chestBits) then .count
      else if rec.shoe = true ∧ r.shoe = false then .shoe else .none) →
    b' = { b with attempts := if b.state = .unknown then b.attempts + 1 else b.attempts } →
    ∃ t w, exec (.replyReceived bytes) s = .next t ∧ t.visible = (passOn i w).visible ∧
      (w.lc.boards[i].state ≠ b.state → BoardChangeRecorded s t) ∧
      (b.state = .present ∨ b.state = .suspect → w.visible = (s.exchanged i b').visible) ∧
      (b.state = .unknown ∨ b.state = .absent ∨ b.state = .mismatch → why = .none →
        ∃ z : State, w = (if rec.kind = .jamb then regainBoard i (adoptContacts i r.levels z) else z) ∧
          z.visible = ((s.exchanged i { b' with
            state := .present, reason := .none, toggle := !r.lastToggle, openFrame := none, missRun := 0 }).withBoardEntry
              i b.state .present).visible) ∧
      (b.state = .unknown ∨ b.state = .absent → why ≠ .none →
        ∃ z : State, w = z.losing i ∧ z.visible = ((s.exchanged i { b' with
          state := .mismatch, reason := why, outgoing := [], openFrame := none }).withBoardEntry i
            b.state .mismatch).visible) ∧
      (b.state = .mismatch → why ≠ .none → w.visible = (s.exchanged i { b' with reason := why }).visible)) ∧
  (∀ (i : Fin 16) (rec : BoardRec) (toggle : Bool) (frame : LinkFrame) (bytes : List Byte), frame ≠ .census →
    bytes.length = 18 → bytes.getD 1 0 = 0x81 →
    (judgeReply i rec toggle frame bytes = .poll (pollReplyOf bytes) ↔
      (frameCheck (bytes.take 16)).toNat = natBE (bytes.drop 16) ∧ (bytes.getD 0 0).toNat = i.val + 1 ∧
        (bytes.getD 2 0).toNat = rec.kind.code ∧ (bytes.getD 3 0 != 0) = toggle)) ∧
  ∀ (i : Fin 16) (rec : BoardRec) (toggle : Bool) (d : BoardReading), d.kind = rec.kind → d.sample < 65536 →
    (∀ (frame : LinkFrame) (b : BoardSide), frame ≠ .census →
      (∃ commands lamps, frame = .pollJamb toggle commands lamps) ∨ (∃ bits, frame = .pollChest toggle bits) →
      ∃ reply, (b.receive frame).reply = some reply ∧
        judgeReply i rec toggle frame (reply.bytes i d) =
          .poll (if d.kind = .chest then ⟨d.kind.code, toggle, 0, false, 0⟩
            else ⟨d.kind.code, toggle, d.levels, d.shoeValid, d.sample⟩)) ∧
    ∀ b : BoardSide, d.contacts < 256 → d.coils < 256 → d.lamps < 256 → d.chestBits < 65536 →
      ∃ reply, (b.receive .census).reply = some reply ∧
        judgeReply i rec toggle .census (reply.bytes i d) =
          .census ⟨d.kind.code, b.lastToggle, d.contacts, d.coils, d.lamps,
            if d.kind = .chest then false else d.shoe, d.chestBits, if d.kind = .chest then 0 else d.levels⟩

/-! ### The request board -/

/-- R137, R138, R139, R140, R141: the sweep's two read completions, and CELL_COMPLETION_WRITE. R140, R150, R162: a
result joins the completion list with the clock, and its writes start at once where it is the only one, and with the
DONE of the one before it otherwise; they are the result at +2, the result value at +8, the completion time at +12 and
DONE at +0, which comes last. That a POSTED cell that the part still holds is passed over (DEDUCED, log entry 8), judged
at the completion of the state read and not when the port made it (DESIGN CHOICE, log entry 44), is the model's, and so
is that the next result's writes wait before the sweep's next read (DESIGN CHOICE, log entry 16). -/
def Obligations.SweepTakesCells : Prop :=
  (∀ (s u : State) (c : Nat), s.rs.sweep = .stateRead c → u = finishRead .rs s →
    ∃ t, exec .sweepStateReadCompletion s = .next t ∧
      ((u.readBytes .rs).getD 0 0 = 1 ∧ s.holdsCell c = false →
        t.visible = ({ s with mem := u.mem, rs := { s.rs with sweep := .cellRead c } } : State).visible ∧
        t.port.get .rs = ⟨(u.port.get .rs).queue ++ [.read (0x011000 + 16 * c + 1), .read (0x011000 + 16 * c + 3),
          .read (0x011000 + 16 * c + 4), .read (0x011000 + 16 * c + 5)], []⟩) ∧
      (¬ ((u.readBytes .rs).getD 0 0 = 1 ∧ s.holdsCell c = false) →
        t.visible = ({ s with mem := u.mem, rs := s.rs.movedOn c } : State).visible)) ∧
  (∀ (s u : State) (c k a0 a1 : Nat), s.rs.sweep = .cellRead c → u = finishRead .rs s →
    k = byteAt (u.readBytes .rs) 0 → a0 = byteAt (u.readBytes .rs) 1 →
    a1 = natLE (((u.readBytes .rs).drop 2).take 2) →
    ∃ t, exec .cellReadCompletion s = .next t ∧
      (∀ r, (k = 0 ∨ 16 < k) ∧ r = .unknown ∨
          (((k = 1 ∨ k = 2) ∧ (s.desc.header.levels ≤ a0 ∨ 128 ≤ a1)) ∨ (k = 4 ∧ 2 < a0) ∨ (k = 9 ∧ 1 < a0) ∨
            (k = 12 ∧ 255 < a1) ∨ (k = 16 ∧ (s.desc.header.stops ≤ a1 ∨ 1 < a0))) ∧ r = .range →
        t.visible = ({ s with
          mem := u.mem
          rs := { s.rs with sweep := .refusing c, completions := s.resultsWith (some c) r 0 } } : State).visible) ∧
      (k = 15 → t.visible = ({ s with mem := u.mem, rs := { s.rs with sweep := .reload c } } : State).visible) ∧
      (∀ kind, RequestKind.ofCode k = some kind → k ≠ 15 →
        ¬ (((k = 1 ∨ k = 2) ∧ (s.desc.header.levels ≤ a0 ∨ 128 ≤ a1)) ∨ (k = 4 ∧ 2 < a0) ∨ (k = 9 ∧ 1 < a0) ∨
            (k = 12 ∧ 255 < a1) ∨ (k = 16 ∧ (s.desc.header.stops ≤ a1 ∨ 1 < a0))) →
        t.visible = ({ s with
          mem := u.mem
          rs := { s.rs with
            sweep := .accepting c ⟨kind, a0, a1⟩, outstanding := setBit s.rs.outstanding c true } } : State).visible ∧
        (t.port.get .rs).queue = (u.port.get .rs).queue ++ [.write .accept (0x011000 + 16 * c) 2])) ∧
  (∀ (s t : State) (x : Completion), t = complete x.cell x.result x.value s → x.time = s.clock →
    t.visible = ({ s with rs := { s.rs with completions := s.rs.completions ++ [x] } } : State).visible ∧
    (s.rs.completions ≠ [] → t.port = s.port) ∧
    (s.rs.completions = [] → t.port.get .rs = ⟨(s.port.get .rs).queue ++
      (writeAccesses .complete (0x011000 + 16 * x.cell + 2) (bytesLE 1 x.result.code) ++
        writeAccesses .complete (0x011000 + 16 * x.cell + 8) (bytesLE 4 x.value) ++
        writeAccesses .complete (0x011000 + 16 * x.cell + 12) (bytesLE 4 x.time.toNat) ++
        writeAccesses .complete (0x011000 + 16 * x.cell) [3]), (s.port.get .rs).buf⟩)) ∧
  ∀ (s u : State) (x : Completion) (rest : List Completion) (base : Nat), s.rs.completions = x :: rest →
    u = finishWrite .rs .complete s → base = 0x011000 + 16 * x.cell →
    ∃ t, exec .cellCompletionWrite s = .next t ∧ t.mem = u.mem ∧ t.hasCause .req = true ∧
      t.rs = (if s.rs.sweep = .refusing x.cell then Requests.movedOn { s.rs with
          completions := rest, outstanding := setBit s.rs.outstanding x.cell false } x.cell
        else { s.rs with completions := rest, outstanding := setBit s.rs.outstanding x.cell false }) ∧
      (s.dl.phase ≠ .awaitingCell x.cell → Same [.mem, .cause, .rs] s.visible t.visible) ∧
      (s.dl.phase = .awaitingCell x.cell → t.part = .descError ∧ t.hasCause .state = true ∧
        Same [.mem, .cause, .rs, .part, .dl] s.visible t.visible) ∧
      (∀ y, rest.head? = some y → ∃ reads, (∀ a ∈ reads, Access.isRead a = true) ∧
        (t.port.get .rs).queue = (u.port.get .rs).queue ++ completionAccesses y ++ reads) ∧
      ∀ before after : List Access, s.mem.wf = true →
        (s.port.get .rs).queue = before ++ completionAccesses x ++ after →
        (∀ a ∈ before, Access.isFor .complete a = false) → (∀ a ∈ after, Access.isFor .complete a = false) →
        (∀ k, base ≤ k → k < base + 16 → ¬ s.port.othersMayWrite .rs k) →
        t.mem.read base = 3 ∧ t.mem.readBytes (base + 2) 1 = bytesLE 1 x.result.code ∧
        t.mem.readBytes (base + 8) 4 = bytesLE 4 x.value ∧ t.mem.readBytes (base + 12) 4 = bytesLE 4 x.time.toNat ∧
        ∀ k, ¬ s.port.mayWrite k → t.mem.read k = s.mem.read k

/-- R115, R133, R144: CLEAR_FAULTS, CLEAR_COUNTERS and RELOAD, whose entry to LOADING leaves every block as one by a
CONTROL write does (R1, R36, R38, R59, R61, R68, R84, R118, R135, R149; `LoadingEntered`, with log entries 5, 29 and
33). CLEAR_COUNTERS marks the link mirrors stale whatever changed (R133). That a RELOAD is accepted in one command, and
that a BUSY one goes from POSTED to DONE without ACCEPTED, is the model's reading (DEDUCED, log entry 13). -/
def Obligations.FaultsCountersReload : Prop :=
  (∀ (s u : State) (c a0 a1 count : Nat), s.rs.sweep = .accepting c ⟨.clearFaults, a0, a1⟩ →
    u = finishWrite .rs .accept s → count = ((List.range 384).filter (fun n => s.ms.fault.getLsbD n)).length →
    ∃ t, exec .clearFaults s = .next t ∧
      t.visible = ({ s with
        mem := u.mem
        ms := { s.ms with fault := 0 }
        rs := Requests.movedOn { s.rs with completions := s.resultsWith (some c) .ok count } c } : State).visible) ∧
  (∀ (s u : State) (c a0 a1 sum : Nat), s.rs.sweep = .accepting c ⟨.clearCounters, a0, a1⟩ →
    u = finishWrite .rs .accept s → sum = (s.lc.boards.toList.map (fun b => b.misses + b.bads)).sum →
    ∃ t, exec .clearCounters s = .next t ∧
      (∀ i : Fin 16, t.lc.boards[i] = { s.lc.boards[i] with misses := 0, bads := 0 }) ∧
      t.lc.clears = (if s.lc.inRound then s.lc.clears ++ [(c, sum)] else s.lc.clears) ∧
      t.rs = (if s.lc.inRound then s.rs.movedOn c
        else Requests.movedOn { s.rs with completions := s.resultsWith (some c) .ok sum } c) ∧
      t.mem = u.mem ∧ t.lc.exchange = s.lc.exchange ∧ Same [.mem, .lc, .rs] s.visible t.visible ∧
      (s.inReset = false → s.lc.mirror.isMarked t.lc.mirror t.linkValues)) ∧
  ∀ (s u : State) (c : Nat), s.rs.sweep = .reload c →
    u = finishWrite .rs .accept (startWrite .rs .accept (0x011000 + 16 * c) [2] s) →
    ∃ t, exec .reload s = .next t ∧
      (s.ce.queue ≠ [] ∨ s.ce.job ≠ none ∨ s.ms.queue ≠ [] →
        t.visible = ({ s with rs := { s.rs with
          sweep := .refusing c, completions := s.resultsWith (some c) .busy 0 } } : State).visible) ∧
      (s.ce.queue = [] → s.ce.job = none → s.ms.queue = [] →
        LoadingEntered u t (if s.dl.loadedOnce then .reload else .hard) ∧
        Same [.mem, .port] s u ∧ t.rs.sweep = .idle ∧ t.rs.scanPending = false ∧ t.rs.reloadCell = some c ∧
        t.rs.outstanding = setBit s.rs.outstanding c true ∧
        t.rs.completions = s.rs.completions ++ ((List.range 32).filter (fun k => k != c &&
          s.rs.outstanding.getLsbD k && !s.rs.completions.any (fun x => x.cell == k))).map
            (fun k => ⟨k, .abandoned, 0, s.clock⟩) ∧
        t.run = s.run)

/-! ### The journal and the mirrors -/

/-- R146, R147, R148, R149: the five commands of the Journal Writer, and what becomes of an entry handed over. A lost
entry has the lost count written to 0x0101C4; at LOST_COUNT_WRITE_COMPLETION the oldest such write has been made. -/
def Obligations.JournalWritten : Prop :=
  (∀ (s : State) (e : JournalEntry) (lost : Nat), lost = min (s.jw.lost + 1) (max s.jw.lost 65535) →
    (16 ≤ s.jw.list.length →
      (journal e s).jw = { s.jw with lost := lost, lostWrites := s.jw.lostWrites + 1 } ∧
      ((journal e s).port.get .jw).queue = (s.port.get .jw).queue ++ writeAccesses .lost 0x0101C4 (bytesLE 2 lost)) ∧
    (s.jw.list.length < 16 → s.jw.phase ≠ .idle →
      (journal e s).jw = { s.jw with list := s.jw.list ++ [{ e with time := s.clock }] } ∧
      (journal e s).port = s.port) ∧
    (s.jw.list.length < 16 → s.jw.phase = .idle →
      (journal e s).jw = Journal.next { s.jw with list := s.jw.list ++ [{ e with time := s.clock }] } ∧
      (journal e s).port.get .jw = ⟨(s.port.get .jw).queue ++ readAccesses 0x011404 4, []⟩)) ∧
  (∀ (s u : State) (e : JournalEntry) (lost : Nat), s.jw.phase = .countRead e → u = finishRead .jw s →
    lost = min (s.jw.lost + 1) (max s.jw.lost 65535) →
    ∃ t, exec .consumedCountReadCompletion s = .next t ∧
      (256 ≤ (s.jw.written - BitVec.ofNat 32 (natLE (u.readBytes .jw))).toNat →
        t.visible = ({ s with
          mem := u.mem
          jw := Journal.next { s.jw with lost := lost, lostWrites := s.jw.lostWrites + 1 } } : State).visible ∧
        (t.port.get .jw).queue = (u.port.get .jw).queue ++ writeAccesses .lost 0x0101C4 (bytesLE 2 lost) ++
          (if s.jw.list = [] then [] else readAccesses 0x011404 4)) ∧
      ((s.jw.written - BitVec.ofNat 32 (natLE (u.readBytes .jw))).toNat < 256 →
        t.visible = ({ s with mem := u.mem, jw := { s.jw with phase := .entryWrite e } } : State).visible ∧
        (t.port.get .jw).queue = (u.port.get .jw).queue ++
          writeAccesses .entry (0x011800 + 16 * (s.jw.written.toNat % 256))
            (bytesLE 4 s.jw.written.toNat ++ bytesLE 4 e.time.toNat ++ bytesLE 1 e.kind.code ++
              bytesLE 1 e.origin.code ++ bytesLE 1 e.level ++ bytesLE 1 e.piston ++ bytesLE 2 e.argA ++
              bytesLE 2 e.argB))) ∧
  (∀ (s u : State) (e : JournalEntry), s.jw.phase = .entryWrite e → u = finishWrite .jw .entry s →
    ∃ t, exec .journalEntryWriteCompletion s = .next t ∧
      t.visible = ({ s with
        mem := u.mem, jw := { s.jw with written := s.jw.written + 1, phase := .countWrite } } : State).visible ∧
      (t.port.get .jw).queue = (u.port.get .jw).queue ++
        writeAccesses .written 0x011400 (bytesLE 4 (s.jw.written + 1).toNat)) ∧
  (∀ s u : State, s.jw.phase = .countWrite → u = finishWrite .jw .written s →
    ∃ t, exec .writtenCountWriteCompletion s = .next t ∧
      t.visible = (raise .jnl { s with mem := u.mem, jw := s.jw.next }).visible ∧
      (t.port.get .jw).queue = (u.port.get .jw).queue ++ (if s.jw.list = [] then [] else readAccesses 0x011404 4)) ∧
  (∀ s u : State, s.jw.lostWrites ≠ 0 →
    u = serveUntil .jw (BlockPort.lostLeft (s.jw.lostWrites - 1)) s.port.waiting s →
    ∃ t, exec .lostCountWriteCompletion s = .next t ∧
      t.visible = (raise .lost { s with
        mem := u.mem, jw := { s.jw with lostWrites := s.jw.lostWrites - 1 } }).visible ∧
      ∀ (before after : List Access) (lost : Nat), s.mem.wf = true →
        (s.port.get .jw).queue = before ++ writeAccesses .lost 0x0101C4 (bytesLE 2 lost) ++ after →
        (∀ y ∈ before, Access.isFor .lost y = false) →
        (after.filter (Access.isFor .lost)).length = 2 * (s.jw.lostWrites - 1) →
        ¬ s.port.othersMayWrite .jw 0x0101C4 → ¬ s.port.othersMayWrite .jw 0x0101C5 →
        t.mem.readBytes 0x0101C4 2 = bytesLE 2 lost ∧ ∀ k, ¬ s.port.mayWrite k → t.mem.read k = s.mem.read k) ∧
  ∀ s u : State, s.jw.phase = .clearing → u = finishWrite .jw .clear s →
    ∃ t, exec .journalHeaderClearWriteCompletion s = .next t ∧
      t.visible = ({ s with mem := u.mem, jw := s.jw.next } : State).visible ∧
      (t.port.get .jw).queue = (u.port.get .jw).queue ++ (if s.jw.list = [] then [] else readAccesses 0x011404 4)

/-- R36, R37, R83, R116, R117, R134, R150, R157, R163: at the end of an update its writes are made, the count is even
again, and IMG or CRES is raised, BRD or FLT where the update shows a change of board state or a new fault. Mirrors that
are stale by then are written by a next update that begins at once: the odd count, each mirror that differs from what
the previous update wrote, in the order of its rule, the even count. The full update of an entry to LOADING writes every
mirror, and its unused bytes 0. A group of which no update is in progress stands through a step or has an update
begun by it, with the values of the moment; by MirrorsFollow (CountsAndSpanKept) a step that changes a value begins one.
That FLT and BRD follow the faults and changes declared since the update before began,
as the showing flags hold them, is the model's reading (DEDUCED, log entry 14); the place of the unused bytes is its
choice (DESIGN CHOICE, log entry 37). That an odd count, left by an abandoned update, goes to the next odd one is its
choice (DESIGN CHOICE, log entry 5), and that the link group's count is kept at an entry to LOADING, as the others are,
is its choice too (DESIGN CHOICE, log entry 33). -/
def Obligations.MirrorUpdatesEnd : Prop :=
  (∀ (s : State), s.inReset = false →
    (s.ru.mirror.updating = true →
      ∃ t u, exec .imageMirrorUpdate s = .next t ∧ u = finishWrite .ru .mirror s ∧
        t.visible = (raise .img { s with mem := u.mem }).visible ∧
        (s.ru.mirror.stale = false → s.ru.mirror.full = false →
          t.ru.mirror = { s.ru.mirror with count := s.ru.mirror.count + 1, updating := false }) ∧
        (s.ru.mirror.stale = true → s.ru.mirror.full = false → s.ru.mirror.count.getLsbD 0 = true →
          t.ru.mirror = ⟨s.ru.mirror.count + 2, false, true, false, s.imageValues⟩ ∧
          (t.port.get .ru).queue = (u.port.get .ru).queue ++
            writeAccesses .mirror 0x010000 (bytesLE 4 (s.ru.mirror.count + 2).toNat) ++
            imageWrites false s.ru.mirror.shadow s.imageValues ++
            writeAccesses .mirror 0x010000 (bytesLE 4 (s.ru.mirror.count + 3).toNat))) ∧
    (s.cu.mirror.updating = true →
      ∃ t u, exec .crescendoMirrorUpdate s = .next t ∧ u = finishWrite .cu .mirror s ∧
        t.visible = (raise .cres { s with mem := u.mem }).visible ∧
        (s.cu.mirror.stale = false → s.cu.mirror.full = false →
          t.cu.mirror = { s.cu.mirror with count := s.cu.mirror.count + 1, updating := false }) ∧
        (s.cu.mirror.stale = true → s.cu.mirror.full = false → s.cu.mirror.count.getLsbD 0 = true →
          t.cu.mirror = ⟨s.cu.mirror.count + 2, false, true, false, s.crescendoValues⟩ ∧
          (t.port.get .cu).queue = (u.port.get .cu).queue ++
            writeAccesses .mirror 0x010180 (bytesLE 4 (s.cu.mirror.count + 2).toNat) ++
            crescendoWrites false s.cu.mirror.shadow s.crescendoValues ++
            writeAccesses .mirror 0x010180 (bytesLE 4 (s.cu.mirror.count + 3).toNat))) ∧
    (s.ms.mirror.updating = true →
      ∃ t u, exec .motionMirrorUpdate s = .next t ∧ u = finishWrite .ms .mirror s ∧
        t.visible = (if s.ms.showing then raise .flt { s with mem := u.mem } else { s with mem := u.mem }).visible ∧
        (s.ms.mirror.stale = false → s.ms.mirror.full = false →
          t.ms.mirror = { s.ms.mirror with count := s.ms.mirror.count + 1, updating := false } ∧
          t.ms.showing = false ∧ t.ms.declared = s.ms.declared) ∧
        (s.ms.mirror.stale = true → s.ms.mirror.full = false → s.ms.mirror.count.getLsbD 0 = true →
          t.ms.mirror = ⟨s.ms.mirror.count + 2, false, true, false, s.motionValues⟩ ∧
          t.ms.showing = s.ms.declared ∧ t.ms.declared = false ∧
          (t.port.get .ms).queue = (u.port.get .ms).queue ++
            writeAccesses .mirror 0x010100 (bytesLE 4 (s.ms.mirror.count + 2).toNat) ++
            motionWrites false s.ms.mirror.shadow s.motionValues ++
            writeAccesses .mirror 0x010100 (bytesLE 4 (s.ms.mirror.count + 3).toNat))) ∧
    (s.lc.mirror.updating = true →
      ∃ t u, exec .linkMirrorUpdate s = .next t ∧ u = finishWrite .lc .mirror s ∧
        t.visible = (if s.lc.showing then raise .brd { s with mem := u.mem } else { s with mem := u.mem }).visible ∧
        (s.lc.mirror.stale = false → s.lc.mirror.full = false →
          t.lc.mirror = { s.lc.mirror with count := s.lc.mirror.count + 1, updating := false } ∧
          t.lc.showing = false ∧ t.lc.changed = s.lc.changed) ∧
        (s.lc.mirror.stale = true → s.lc.mirror.full = false → s.lc.mirror.count.getLsbD 0 = true →
          t.lc.mirror = ⟨s.lc.mirror.count + 2, false, true, false, s.linkValues⟩ ∧
          t.lc.showing = s.lc.changed ∧ t.lc.changed = false ∧
          (t.port.get .lc).queue = (u.port.get .lc).queue ++
            writeAccesses .mirror 0x010200 (bytesLE 4 (s.lc.mirror.count + 2).toNat) ++
            linkWrites false s.lc.mirror.shadow 0 s.linkValues ++
            writeAccesses .mirror 0x010200 (bytesLE 4 (s.lc.mirror.count + 3).toNat)))) ∧
  (∀ (s : State) (data : BitVec 16), s.inReset = false → data.getLsbD 0 = true → data.getLsbD 1 = true →
    ∃ t, exec (.reset data) s = .next t ∧ FullUpdateBegun s t) ∧
  (∀ s t : State, HeldInReset s → MirrorsFollow s → step s = .next t → t.inReset = false →
    s.ru.mirror.standsOrBegins t.ru.mirror t.imageValues (t.part = .loading) 0x010000 imageWrites
      (t.port.get .ru).queue ∧
    s.cu.mirror.standsOrBegins t.cu.mirror t.crescendoValues (t.part = .loading) 0x010180 crescendoWrites
      (t.port.get .cu).queue ∧
    s.ms.mirror.standsOrBegins t.ms.mirror t.motionValues (t.part = .loading) 0x010100 motionWrites
      (t.port.get .ms).queue ∧
    s.lc.mirror.standsOrBegins t.lc.mirror t.linkValues (t.part = .loading) 0x010200
      (fun full old new => linkWrites full old 0 new) (t.port.get .lc).queue) ∧
  (∀ (full : Bool) (old new : ImageValues), imageWrites full old new = updateWrites full
    [(old.ri != new.ri, 0x010008, imageBytes new.ri), (old.ci != new.ci, 0x010038, imageBytes new.ci),
      (old.si != new.si, 0x010068, imageBytes new.si), (old.ti != new.ti, 0x010098, imageBytes new.ti),
      (old.tutti != new.tutti, 0x010004, bytesLE 1 new.tutti.toNat), (false, 0x010005, [0, 0, 0])]) ∧
  (∀ (full : Bool) (old new : CrescendoValues), crescendoWrites full old new = updateWrites full
    [(old.signal != new.signal, 0x01018C, bytesLE 1 new.signal), (old.f != new.f, 0x010184, bytesLE 2 new.f),
      (old.q != new.q, 0x010186, bytesLE 2 new.q), (old.stage != new.stage, 0x01018D, bytesLE 1 new.stage),
      (old.program != new.program, 0x01018E, bytesLE 1 new.program),
      (old.stageCount != new.stageCount, 0x01018F, bytesLE 1 new.stageCount),
      (old.lo != new.lo, 0x010188, bytesLE 2 new.lo), (old.hi != new.hi, 0x01018A, bytesLE 2 new.hi),
      (old.loading != new.loading, 0x010190, bytesLE 1 new.loading)]) ∧
  (∀ (full : Bool) (old new : MotionValues), motionWrites full old new = updateWrites full
    [(old.length != new.length, 0x010104, bytesLE 2 new.length),
      (old.energised != new.energised, 0x01010A, bytesLE 1 new.energised),
      (old.committed != new.committed, 0x010106, bytesLE 2 new.committed),
      (old.head != new.head, 0x010108, bytesLE 2 new.head), (old.fault != new.fault, 0x010110, imageBytes new.fault),
      (old.unreachable != new.unreachable, 0x010140, imageBytes new.unreachable),
      (false, 0x01010B, [0, 0, 0, 0, 0])]) ∧
  ∀ (full : Bool) (old new : List BoardValues), linkWrites full old 0 new =
    ((List.range new.length).map (fun i => updateWrites full
      [((old.getD i {}).state != (new.getD i {}).state, 0x010208 + 8 * i, bytesLE 1 (new.getD i {}).state),
        ((old.getD i {}).reason != (new.getD i {}).reason, 0x010209 + 8 * i, bytesLE 1 (new.getD i {}).reason),
        ((old.getD i {}).misses != (new.getD i {}).misses, 0x01020A + 8 * i, bytesLE 1 (new.getD i {}).misses),
        ((old.getD i {}).bads != (new.getD i {}).bads, 0x01020B + 8 * i, bytesLE 1 (new.getD i {}).bads),
        ((old.getD i {}).outgoing != (new.getD i {}).outgoing, 0x01020C + 8 * i, bytesLE 1 (new.getD i {}).outgoing),
        (false, 0x01020D + 8 * i, [0, 0, 0])])).flatten

end
end

