-- ==== Sys2Proof/Laws/Bits.lean ====
section
/-! SUPPORT. Bits of flag words and stop images, stop by stop, and the bytes of numbers. -/

namespace Sys2Proof.Machine

theorem getLsbD_setBit {w : Nat} (x : BitVec w) (i : Nat) (b : Bool) (n : Nat) :
    (setBit x i b).getLsbD n = if n = i ∧ i < w then b else x.getLsbD n := by
  have one : ((1#w <<< i).getLsbD n) = decide (n = i ∧ i < w) := by
    rw [BitVec.getLsbD_shiftLeft]
    by_cases h : n = i
    · subst h
      by_cases hw : n < w
      · have : 0 < w := by omega
        simp [hw, this]
      · simp [hw]
    · by_cases hlt : n < i
      · simp [hlt, h]
      · have : n - i ≠ 0 := by omega
        simp [h, BitVec.getLsbD_one, this]
  unfold setBit
  cases b with
  | true =>
    rw [if_pos rfl, BitVec.getLsbD_or, one]
    by_cases h : n = i ∧ i < w <;> simp [h]
  | false =>
    rw [if_neg (by simp), BitVec.getLsbD_and, BitVec.getLsbD_not, one]
    by_cases h : n = i ∧ i < w
    · simp [h]
    · simp only [h, decide_false, Bool.not_false, Bool.and_true, if_false]
      by_cases hn : n < w
      · simp [hn]
      · simp [hn, BitVec.getLsbD_of_ge x n (by omega)]

theorem getLsbD_firstStops (n k : Nat) : (firstStops n).getLsbD k = decide (k < n ∧ k < 384) := by
  unfold firstStops
  rw [BitVec.getLsbD_ofNat, Nat.testBit_two_pow_sub_one]
  simp only [Config.maxStops]
  by_cases h : k < 384 <;> by_cases h' : k < n <;> simp [h, h']

theorem getLsbD_stopMask (p : StopRec → Bool) (m : Nat) (rs : List StopRec) (k : Nat) :
    (stopMask p m rs).getLsbD k = (decide (m ≤ k ∧ k < 384) && (rs[k - m]?).any p) := by
  induction rs generalizing m with
  | nil => simp [stopMask]
  | cons r rs ih =>
    have step : (stopMask p m (r :: rs)).getLsbD k =
        if k = m ∧ m < 384 then p r else (stopMask p (m + 1) rs).getLsbD k := by
      simp only [stopMask]
      by_cases hp : p r = true
      · rw [if_pos hp, getLsbD_setBit]
        by_cases h : k = m ∧ m < 384 <;> simp [h, hp]
      · rw [if_neg hp]
        by_cases h : k = m ∧ m < 384
        · rw [if_pos h, ih]
          have : ¬ (m + 1 ≤ k) := by omega
          simp [this, hp]
        · rw [if_neg h]
    rw [step, ih]
    by_cases h : k = m ∧ m < 384
    · rw [if_pos h]
      obtain ⟨rfl, hk⟩ := h
      simp [hk]
    · rw [if_neg h]
      by_cases hk : m + 1 ≤ k ∧ k < 384
      · obtain ⟨j, rfl⟩ : ∃ j, k = m + 1 + j := ⟨k - (m + 1), by omega⟩
        have e1 : m + 1 + j - m = j + 1 := by omega
        have e2 : m + 1 + j - (m + 1) = j := by omega
        have h1 : m ≤ m + 1 + j := by omega
        have h2 : m + 1 ≤ m + 1 + j := by omega
        rw [e1, e2, List.getElem?_cons_succ]
        simp [hk.2, h1, h2]
      · have : ¬ (m ≤ k ∧ k < 384) := by omega
        rw [decide_eq_false hk, decide_eq_false this, Bool.false_and, Bool.false_and]

/-- The stops of a description that pass a test. -/
theorem getLsbD_stopsWhere (d : Desc) (p : StopRec → Bool) (k : Nat) :
    (d.stopsWhere p).getLsbD k = (decide (k < 384) && (d.stops[k]?).any p) := by
  simp [Desc.stopsWhere, getLsbD_stopMask]

theorem getLsbD_imageOfStops (l : List Nat) (k : Nat) :
    (imageOfStops l).getLsbD k = decide (k ∈ l ∧ k < 384) := by
  induction l with
  | nil => simp [imageOfStops]
  | cons s l ih =>
    rw [imageOfStops, getLsbD_setBit, ih]
    by_cases h : k = s
    · subst h
      by_cases hk : k < 384 <;> simp [hk]
    · simp [h]

theorem mem_stopsOf (image : StopImage) (k : Nat) : k ∈ stopsOf image ↔ image.getLsbD k = true := by
  unfold stopsOf
  rw [List.mem_filter, List.mem_range]
  refine ⟨fun h => h.2, fun h => ⟨?_, h⟩⟩
  exact BitVec.lt_of_getLsbD h

theorem stopsOf_nodup (image : StopImage) : (stopsOf image).Nodup := List.nodup_range.filter _

theorem getLsbD_mergeImage (image mask bits : StopImage) (k : Nat) :
    (mergeImage image mask bits).getLsbD k = if mask.getLsbD k then bits.getLsbD k else image.getLsbD k := by
  unfold mergeImage
  rw [BitVec.getLsbD_or, BitVec.getLsbD_and, BitVec.getLsbD_and, BitVec.getLsbD_not]
  by_cases h : mask.getLsbD k
  · simp [h]
  · rw [Bool.not_eq_true] at h
    by_cases hk : k < 384
    · rw [h]
      simp [hk]
    · simp [hk, BitVec.getLsbD_of_ge image k (by omega), BitVec.getLsbD_of_ge bits k (by omega),
        BitVec.getLsbD_of_ge mask k (by omega)]

/-- RI as a change set leaves it, stop by stop (R23). -/
theorem getLsbD_registrationAfter (s : State) (c : ChangeSet) (k : Nat) :
    (s.registrationAfter c).getLsbD k =
      if c.mask.getLsbD k && !s.ms.fault.getLsbD k && !s.ms.unreachable.getLsbD k then c.bits.getLsbD k
      else s.ru.ri.getLsbD k := by
  unfold State.registrationAfter State.heldStops
  rw [getLsbD_mergeImage, BitVec.getLsbD_and, BitVec.getLsbD_not, BitVec.getLsbD_or]
  by_cases hk : k < 384
  · simp [hk, Bool.and_assoc]
  · simp [hk, BitVec.getLsbD_of_ge c.mask k (by omega)]

/-! ### Bytes of numbers -/

@[simp] theorem bytesLE_length (n x : Nat) : (bytesLE n x).length = n := by
  induction n generalizing x with
  | zero => rfl
  | succ n ih => simp [bytesLE, ih]

theorem natLE_bytesLE (n x : Nat) : natLE (bytesLE n x) = x % 256 ^ n := by
  induction n generalizing x with
  | zero => simp [bytesLE, natLE, Nat.mod_one]
  | succ n ih =>
    have e : (256 : Nat) ^ (n + 1) = 256 * 256 ^ n := pow_succ' 256 n
    rw [bytesLE, natLE, ih, BitVec.toNat_ofNat, e, Nat.mod_mul]

@[simp] theorem imageBytes_length (image : StopImage) : (imageBytes image).length = 48 := bytesLE_length _ _

theorem imageOf_imageBytes (image : StopImage) : imageOf (imageBytes image) = image := by
  unfold imageOf imageBytes
  rw [natLE_bytesLE]
  have h : image.toNat < 256 ^ 48 := by
    exact lt_of_lt_of_eq image.isLt (pow_mul 2 8 48)
  rw [Nat.mod_eq_of_lt h, BitVec.ofNat_toNat, BitVec.setWidth_eq]

end Sys2Proof.Machine
end

