-- ==== Sys2Proof/Laws/State.lean ====
section
/-! SUPPORT. One lemma per field per update: what the basic updates of the state leave, and what they write, each
true by unfolding, so that no proof unfolds a record update. -/

namespace Sys2Proof.Machine

/-! ### raise -/

@[simp] theorem raise_inReset (f : CauseFlag) (s : State) : (raise f s).inReset = s.inReset := rfl
@[simp] theorem raise_part (f : CauseFlag) (s : State) : (raise f s).part = s.part := rfl
@[simp] theorem raise_run (f : CauseFlag) (s : State) : (raise f s).run = s.run := rfl
@[simp] theorem raise_attnEn (f : CauseFlag) (s : State) : (raise f s).attnEn = s.attnEn := rfl
@[simp] theorem raise_mask (f : CauseFlag) (s : State) : (raise f s).mask = s.mask := rfl
@[simp] theorem raise_readData (f : CauseFlag) (s : State) : (raise f s).readData = s.readData := rfl
@[simp] theorem raise_clock (f : CauseFlag) (s : State) : (raise f s).clock = s.clock := rfl
@[simp] theorem raise_clockZeroed (f : CauseFlag) (s : State) : (raise f s).clockZeroed = s.clockZeroed := rfl
@[simp] theorem raise_mem (f : CauseFlag) (s : State) : (raise f s).mem = s.mem := rfl
@[simp] theorem raise_port (f : CauseFlag) (s : State) : (raise f s).port = s.port := rfl
@[simp] theorem raise_dl (f : CauseFlag) (s : State) : (raise f s).dl = s.dl := rfl
@[simp] theorem raise_ce (f : CauseFlag) (s : State) : (raise f s).ce = s.ce := rfl
@[simp] theorem raise_sq (f : CauseFlag) (s : State) : (raise f s).sq = s.sq := rfl
@[simp] theorem raise_cu (f : CauseFlag) (s : State) : (raise f s).cu = s.cu := rfl
@[simp] theorem raise_cs (f : CauseFlag) (s : State) : (raise f s).cs = s.cs := rfl
@[simp] theorem raise_ru (f : CauseFlag) (s : State) : (raise f s).ru = s.ru := rfl
@[simp] theorem raise_ms (f : CauseFlag) (s : State) : (raise f s).ms = s.ms := rfl
@[simp] theorem raise_lc (f : CauseFlag) (s : State) : (raise f s).lc = s.lc := rfl
@[simp] theorem raise_rs (f : CauseFlag) (s : State) : (raise f s).rs = s.rs := rfl
@[simp] theorem raise_jw (f : CauseFlag) (s : State) : (raise f s).jw = s.jw := rfl
@[simp] theorem raise_line (f : CauseFlag) (s : State) : (raise f s).line = s.line := rfl
@[simp] theorem raise_pending (f : CauseFlag) (s : State) : (raise f s).pending = s.pending := rfl

/-! ### enqueueAccesses -/

@[simp] theorem enqueueAccesses_inReset (b : Block) (as : List Access) (s : State) : (enqueueAccesses b as s).inReset = s.inReset := rfl
@[simp] theorem enqueueAccesses_part (b : Block) (as : List Access) (s : State) : (enqueueAccesses b as s).part = s.part := rfl
@[simp] theorem enqueueAccesses_run (b : Block) (as : List Access) (s : State) : (enqueueAccesses b as s).run = s.run := rfl
@[simp] theorem enqueueAccesses_attnEn (b : Block) (as : List Access) (s : State) : (enqueueAccesses b as s).attnEn = s.attnEn := rfl
@[simp] theorem enqueueAccesses_cause (b : Block) (as : List Access) (s : State) : (enqueueAccesses b as s).cause = s.cause := rfl
@[simp] theorem enqueueAccesses_mask (b : Block) (as : List Access) (s : State) : (enqueueAccesses b as s).mask = s.mask := rfl
@[simp] theorem enqueueAccesses_readData (b : Block) (as : List Access) (s : State) : (enqueueAccesses b as s).readData = s.readData := rfl
@[simp] theorem enqueueAccesses_clock (b : Block) (as : List Access) (s : State) : (enqueueAccesses b as s).clock = s.clock := rfl
@[simp] theorem enqueueAccesses_clockZeroed (b : Block) (as : List Access) (s : State) : (enqueueAccesses b as s).clockZeroed = s.clockZeroed := rfl
@[simp] theorem enqueueAccesses_mem (b : Block) (as : List Access) (s : State) : (enqueueAccesses b as s).mem = s.mem := rfl
@[simp] theorem enqueueAccesses_dl (b : Block) (as : List Access) (s : State) : (enqueueAccesses b as s).dl = s.dl := rfl
@[simp] theorem enqueueAccesses_ce (b : Block) (as : List Access) (s : State) : (enqueueAccesses b as s).ce = s.ce := rfl
@[simp] theorem enqueueAccesses_sq (b : Block) (as : List Access) (s : State) : (enqueueAccesses b as s).sq = s.sq := rfl
@[simp] theorem enqueueAccesses_cu (b : Block) (as : List Access) (s : State) : (enqueueAccesses b as s).cu = s.cu := rfl
@[simp] theorem enqueueAccesses_cs (b : Block) (as : List Access) (s : State) : (enqueueAccesses b as s).cs = s.cs := rfl
@[simp] theorem enqueueAccesses_ru (b : Block) (as : List Access) (s : State) : (enqueueAccesses b as s).ru = s.ru := rfl
@[simp] theorem enqueueAccesses_ms (b : Block) (as : List Access) (s : State) : (enqueueAccesses b as s).ms = s.ms := rfl
@[simp] theorem enqueueAccesses_lc (b : Block) (as : List Access) (s : State) : (enqueueAccesses b as s).lc = s.lc := rfl
@[simp] theorem enqueueAccesses_rs (b : Block) (as : List Access) (s : State) : (enqueueAccesses b as s).rs = s.rs := rfl
@[simp] theorem enqueueAccesses_jw (b : Block) (as : List Access) (s : State) : (enqueueAccesses b as s).jw = s.jw := rfl
@[simp] theorem enqueueAccesses_line (b : Block) (as : List Access) (s : State) : (enqueueAccesses b as s).line = s.line := rfl
@[simp] theorem enqueueAccesses_pending (b : Block) (as : List Access) (s : State) : (enqueueAccesses b as s).pending = s.pending := rfl

/-! ### startRead -/

@[simp] theorem startRead_inReset (b : Block) (a n : Nat) (s : State) : (startRead b a n s).inReset = s.inReset := rfl
@[simp] theorem startRead_part (b : Block) (a n : Nat) (s : State) : (startRead b a n s).part = s.part := rfl
@[simp] theorem startRead_run (b : Block) (a n : Nat) (s : State) : (startRead b a n s).run = s.run := rfl
@[simp] theorem startRead_attnEn (b : Block) (a n : Nat) (s : State) : (startRead b a n s).attnEn = s.attnEn := rfl
@[simp] theorem startRead_cause (b : Block) (a n : Nat) (s : State) : (startRead b a n s).cause = s.cause := rfl
@[simp] theorem startRead_mask (b : Block) (a n : Nat) (s : State) : (startRead b a n s).mask = s.mask := rfl
@[simp] theorem startRead_readData (b : Block) (a n : Nat) (s : State) : (startRead b a n s).readData = s.readData := rfl
@[simp] theorem startRead_clock (b : Block) (a n : Nat) (s : State) : (startRead b a n s).clock = s.clock := rfl
@[simp] theorem startRead_clockZeroed (b : Block) (a n : Nat) (s : State) : (startRead b a n s).clockZeroed = s.clockZeroed := rfl
@[simp] theorem startRead_mem (b : Block) (a n : Nat) (s : State) : (startRead b a n s).mem = s.mem := rfl
@[simp] theorem startRead_dl (b : Block) (a n : Nat) (s : State) : (startRead b a n s).dl = s.dl := rfl
@[simp] theorem startRead_ce (b : Block) (a n : Nat) (s : State) : (startRead b a n s).ce = s.ce := rfl
@[simp] theorem startRead_sq (b : Block) (a n : Nat) (s : State) : (startRead b a n s).sq = s.sq := rfl
@[simp] theorem startRead_cu (b : Block) (a n : Nat) (s : State) : (startRead b a n s).cu = s.cu := rfl
@[simp] theorem startRead_cs (b : Block) (a n : Nat) (s : State) : (startRead b a n s).cs = s.cs := rfl
@[simp] theorem startRead_ru (b : Block) (a n : Nat) (s : State) : (startRead b a n s).ru = s.ru := rfl
@[simp] theorem startRead_ms (b : Block) (a n : Nat) (s : State) : (startRead b a n s).ms = s.ms := rfl
@[simp] theorem startRead_lc (b : Block) (a n : Nat) (s : State) : (startRead b a n s).lc = s.lc := rfl
@[simp] theorem startRead_rs (b : Block) (a n : Nat) (s : State) : (startRead b a n s).rs = s.rs := rfl
@[simp] theorem startRead_jw (b : Block) (a n : Nat) (s : State) : (startRead b a n s).jw = s.jw := rfl
@[simp] theorem startRead_line (b : Block) (a n : Nat) (s : State) : (startRead b a n s).line = s.line := rfl
@[simp] theorem startRead_pending (b : Block) (a n : Nat) (s : State) : (startRead b a n s).pending = s.pending := rfl

/-! ### startWrite -/

@[simp] theorem startWrite_inReset (b : Block) (p : Purpose) (a : Nat) (bytes : List Byte) (s : State) : (startWrite b p a bytes s).inReset = s.inReset := rfl
@[simp] theorem startWrite_part (b : Block) (p : Purpose) (a : Nat) (bytes : List Byte) (s : State) : (startWrite b p a bytes s).part = s.part := rfl
@[simp] theorem startWrite_run (b : Block) (p : Purpose) (a : Nat) (bytes : List Byte) (s : State) : (startWrite b p a bytes s).run = s.run := rfl
@[simp] theorem startWrite_attnEn (b : Block) (p : Purpose) (a : Nat) (bytes : List Byte) (s : State) : (startWrite b p a bytes s).attnEn = s.attnEn := rfl
@[simp] theorem startWrite_cause (b : Block) (p : Purpose) (a : Nat) (bytes : List Byte) (s : State) : (startWrite b p a bytes s).cause = s.cause := rfl
@[simp] theorem startWrite_mask (b : Block) (p : Purpose) (a : Nat) (bytes : List Byte) (s : State) : (startWrite b p a bytes s).mask = s.mask := rfl
@[simp] theorem startWrite_readData (b : Block) (p : Purpose) (a : Nat) (bytes : List Byte) (s : State) : (startWrite b p a bytes s).readData = s.readData := rfl
@[simp] theorem startWrite_clock (b : Block) (p : Purpose) (a : Nat) (bytes : List Byte) (s : State) : (startWrite b p a bytes s).clock = s.clock := rfl
@[simp] theorem startWrite_clockZeroed (b : Block) (p : Purpose) (a : Nat) (bytes : List Byte) (s : State) : (startWrite b p a bytes s).clockZeroed = s.clockZeroed := rfl
@[simp] theorem startWrite_mem (b : Block) (p : Purpose) (a : Nat) (bytes : List Byte) (s : State) : (startWrite b p a bytes s).mem = s.mem := rfl
@[simp] theorem startWrite_dl (b : Block) (p : Purpose) (a : Nat) (bytes : List Byte) (s : State) : (startWrite b p a bytes s).dl = s.dl := rfl
@[simp] theorem startWrite_ce (b : Block) (p : Purpose) (a : Nat) (bytes : List Byte) (s : State) : (startWrite b p a bytes s).ce = s.ce := rfl
@[simp] theorem startWrite_sq (b : Block) (p : Purpose) (a : Nat) (bytes : List Byte) (s : State) : (startWrite b p a bytes s).sq = s.sq := rfl
@[simp] theorem startWrite_cu (b : Block) (p : Purpose) (a : Nat) (bytes : List Byte) (s : State) : (startWrite b p a bytes s).cu = s.cu := rfl
@[simp] theorem startWrite_cs (b : Block) (p : Purpose) (a : Nat) (bytes : List Byte) (s : State) : (startWrite b p a bytes s).cs = s.cs := rfl
@[simp] theorem startWrite_ru (b : Block) (p : Purpose) (a : Nat) (bytes : List Byte) (s : State) : (startWrite b p a bytes s).ru = s.ru := rfl
@[simp] theorem startWrite_ms (b : Block) (p : Purpose) (a : Nat) (bytes : List Byte) (s : State) : (startWrite b p a bytes s).ms = s.ms := rfl
@[simp] theorem startWrite_lc (b : Block) (p : Purpose) (a : Nat) (bytes : List Byte) (s : State) : (startWrite b p a bytes s).lc = s.lc := rfl
@[simp] theorem startWrite_rs (b : Block) (p : Purpose) (a : Nat) (bytes : List Byte) (s : State) : (startWrite b p a bytes s).rs = s.rs := rfl
@[simp] theorem startWrite_jw (b : Block) (p : Purpose) (a : Nat) (bytes : List Byte) (s : State) : (startWrite b p a bytes s).jw = s.jw := rfl
@[simp] theorem startWrite_line (b : Block) (p : Purpose) (a : Nat) (bytes : List Byte) (s : State) : (startWrite b p a bytes s).line = s.line := rfl
@[simp] theorem startWrite_pending (b : Block) (p : Purpose) (a : Nat) (bytes : List Byte) (s : State) : (startWrite b p a bytes s).pending = s.pending := rfl

/-! ### keepAccesses -/

@[simp] theorem keepAccesses_inReset (b : Block) (keep : Access → Bool) (s : State) : (keepAccesses b keep s).inReset = s.inReset := rfl
@[simp] theorem keepAccesses_part (b : Block) (keep : Access → Bool) (s : State) : (keepAccesses b keep s).part = s.part := rfl
@[simp] theorem keepAccesses_run (b : Block) (keep : Access → Bool) (s : State) : (keepAccesses b keep s).run = s.run := rfl
@[simp] theorem keepAccesses_attnEn (b : Block) (keep : Access → Bool) (s : State) : (keepAccesses b keep s).attnEn = s.attnEn := rfl
@[simp] theorem keepAccesses_cause (b : Block) (keep : Access → Bool) (s : State) : (keepAccesses b keep s).cause = s.cause := rfl
@[simp] theorem keepAccesses_mask (b : Block) (keep : Access → Bool) (s : State) : (keepAccesses b keep s).mask = s.mask := rfl
@[simp] theorem keepAccesses_readData (b : Block) (keep : Access → Bool) (s : State) : (keepAccesses b keep s).readData = s.readData := rfl
@[simp] theorem keepAccesses_clock (b : Block) (keep : Access → Bool) (s : State) : (keepAccesses b keep s).clock = s.clock := rfl
@[simp] theorem keepAccesses_clockZeroed (b : Block) (keep : Access → Bool) (s : State) : (keepAccesses b keep s).clockZeroed = s.clockZeroed := rfl
@[simp] theorem keepAccesses_mem (b : Block) (keep : Access → Bool) (s : State) : (keepAccesses b keep s).mem = s.mem := rfl
@[simp] theorem keepAccesses_dl (b : Block) (keep : Access → Bool) (s : State) : (keepAccesses b keep s).dl = s.dl := rfl
@[simp] theorem keepAccesses_ce (b : Block) (keep : Access → Bool) (s : State) : (keepAccesses b keep s).ce = s.ce := rfl
@[simp] theorem keepAccesses_sq (b : Block) (keep : Access → Bool) (s : State) : (keepAccesses b keep s).sq = s.sq := rfl
@[simp] theorem keepAccesses_cu (b : Block) (keep : Access → Bool) (s : State) : (keepAccesses b keep s).cu = s.cu := rfl
@[simp] theorem keepAccesses_cs (b : Block) (keep : Access → Bool) (s : State) : (keepAccesses b keep s).cs = s.cs := rfl
@[simp] theorem keepAccesses_ru (b : Block) (keep : Access → Bool) (s : State) : (keepAccesses b keep s).ru = s.ru := rfl
@[simp] theorem keepAccesses_ms (b : Block) (keep : Access → Bool) (s : State) : (keepAccesses b keep s).ms = s.ms := rfl
@[simp] theorem keepAccesses_lc (b : Block) (keep : Access → Bool) (s : State) : (keepAccesses b keep s).lc = s.lc := rfl
@[simp] theorem keepAccesses_rs (b : Block) (keep : Access → Bool) (s : State) : (keepAccesses b keep s).rs = s.rs := rfl
@[simp] theorem keepAccesses_jw (b : Block) (keep : Access → Bool) (s : State) : (keepAccesses b keep s).jw = s.jw := rfl
@[simp] theorem keepAccesses_line (b : Block) (keep : Access → Bool) (s : State) : (keepAccesses b keep s).line = s.line := rfl
@[simp] theorem keepAccesses_pending (b : Block) (keep : Access → Bool) (s : State) : (keepAccesses b keep s).pending = s.pending := rfl

/-! ### reachTime -/

@[simp] theorem reachTime_inReset (due : BitVec 32) (s : State) : (reachTime due s).inReset = s.inReset := rfl
@[simp] theorem reachTime_part (due : BitVec 32) (s : State) : (reachTime due s).part = s.part := rfl
@[simp] theorem reachTime_run (due : BitVec 32) (s : State) : (reachTime due s).run = s.run := rfl
@[simp] theorem reachTime_attnEn (due : BitVec 32) (s : State) : (reachTime due s).attnEn = s.attnEn := rfl
@[simp] theorem reachTime_cause (due : BitVec 32) (s : State) : (reachTime due s).cause = s.cause := rfl
@[simp] theorem reachTime_mask (due : BitVec 32) (s : State) : (reachTime due s).mask = s.mask := rfl
@[simp] theorem reachTime_readData (due : BitVec 32) (s : State) : (reachTime due s).readData = s.readData := rfl
@[simp] theorem reachTime_clockZeroed (due : BitVec 32) (s : State) : (reachTime due s).clockZeroed = s.clockZeroed := rfl
@[simp] theorem reachTime_mem (due : BitVec 32) (s : State) : (reachTime due s).mem = s.mem := rfl
@[simp] theorem reachTime_port (due : BitVec 32) (s : State) : (reachTime due s).port = s.port := rfl
@[simp] theorem reachTime_dl (due : BitVec 32) (s : State) : (reachTime due s).dl = s.dl := rfl
@[simp] theorem reachTime_ce (due : BitVec 32) (s : State) : (reachTime due s).ce = s.ce := rfl
@[simp] theorem reachTime_sq (due : BitVec 32) (s : State) : (reachTime due s).sq = s.sq := rfl
@[simp] theorem reachTime_cu (due : BitVec 32) (s : State) : (reachTime due s).cu = s.cu := rfl
@[simp] theorem reachTime_cs (due : BitVec 32) (s : State) : (reachTime due s).cs = s.cs := rfl
@[simp] theorem reachTime_ru (due : BitVec 32) (s : State) : (reachTime due s).ru = s.ru := rfl
@[simp] theorem reachTime_ms (due : BitVec 32) (s : State) : (reachTime due s).ms = s.ms := rfl
@[simp] theorem reachTime_lc (due : BitVec 32) (s : State) : (reachTime due s).lc = s.lc := rfl
@[simp] theorem reachTime_rs (due : BitVec 32) (s : State) : (reachTime due s).rs = s.rs := rfl
@[simp] theorem reachTime_jw (due : BitVec 32) (s : State) : (reachTime due s).jw = s.jw := rfl
@[simp] theorem reachTime_line (due : BitVec 32) (s : State) : (reachTime due s).line = s.line := rfl
@[simp] theorem reachTime_pending (due : BitVec 32) (s : State) : (reachTime due s).pending = s.pending := rfl

/-! ### changePart -/

@[simp] theorem changePart_inReset (p : PartState) (s : State) : (changePart p s).inReset = s.inReset := rfl
@[simp] theorem changePart_run (p : PartState) (s : State) : (changePart p s).run = s.run := rfl
@[simp] theorem changePart_attnEn (p : PartState) (s : State) : (changePart p s).attnEn = s.attnEn := rfl
@[simp] theorem changePart_mask (p : PartState) (s : State) : (changePart p s).mask = s.mask := rfl
@[simp] theorem changePart_readData (p : PartState) (s : State) : (changePart p s).readData = s.readData := rfl
@[simp] theorem changePart_clock (p : PartState) (s : State) : (changePart p s).clock = s.clock := rfl
@[simp] theorem changePart_clockZeroed (p : PartState) (s : State) : (changePart p s).clockZeroed = s.clockZeroed := rfl
@[simp] theorem changePart_mem (p : PartState) (s : State) : (changePart p s).mem = s.mem := rfl
@[simp] theorem changePart_port (p : PartState) (s : State) : (changePart p s).port = s.port := rfl
@[simp] theorem changePart_dl (p : PartState) (s : State) : (changePart p s).dl = s.dl := rfl
@[simp] theorem changePart_ce (p : PartState) (s : State) : (changePart p s).ce = s.ce := rfl
@[simp] theorem changePart_sq (p : PartState) (s : State) : (changePart p s).sq = s.sq := rfl
@[simp] theorem changePart_cu (p : PartState) (s : State) : (changePart p s).cu = s.cu := rfl
@[simp] theorem changePart_cs (p : PartState) (s : State) : (changePart p s).cs = s.cs := rfl
@[simp] theorem changePart_ru (p : PartState) (s : State) : (changePart p s).ru = s.ru := rfl
@[simp] theorem changePart_ms (p : PartState) (s : State) : (changePart p s).ms = s.ms := rfl
@[simp] theorem changePart_lc (p : PartState) (s : State) : (changePart p s).lc = s.lc := rfl
@[simp] theorem changePart_rs (p : PartState) (s : State) : (changePart p s).rs = s.rs := rfl
@[simp] theorem changePart_jw (p : PartState) (s : State) : (changePart p s).jw = s.jw := rfl
@[simp] theorem changePart_line (p : PartState) (s : State) : (changePart p s).line = s.line := rfl
@[simp] theorem changePart_pending (p : PartState) (s : State) : (changePart p s).pending = s.pending := rfl

/-! ### recompute -/

@[simp] theorem recompute_inReset (s : State) : (recompute s).inReset = s.inReset := rfl
@[simp] theorem recompute_part (s : State) : (recompute s).part = s.part := rfl
@[simp] theorem recompute_run (s : State) : (recompute s).run = s.run := rfl
@[simp] theorem recompute_attnEn (s : State) : (recompute s).attnEn = s.attnEn := rfl
@[simp] theorem recompute_cause (s : State) : (recompute s).cause = s.cause := rfl
@[simp] theorem recompute_mask (s : State) : (recompute s).mask = s.mask := rfl
@[simp] theorem recompute_readData (s : State) : (recompute s).readData = s.readData := rfl
@[simp] theorem recompute_clock (s : State) : (recompute s).clock = s.clock := rfl
@[simp] theorem recompute_clockZeroed (s : State) : (recompute s).clockZeroed = s.clockZeroed := rfl
@[simp] theorem recompute_mem (s : State) : (recompute s).mem = s.mem := rfl
@[simp] theorem recompute_port (s : State) : (recompute s).port = s.port := rfl
@[simp] theorem recompute_dl (s : State) : (recompute s).dl = s.dl := rfl
@[simp] theorem recompute_ce (s : State) : (recompute s).ce = s.ce := rfl
@[simp] theorem recompute_sq (s : State) : (recompute s).sq = s.sq := rfl
@[simp] theorem recompute_cu (s : State) : (recompute s).cu = s.cu := rfl
@[simp] theorem recompute_cs (s : State) : (recompute s).cs = s.cs := rfl
@[simp] theorem recompute_ms (s : State) : (recompute s).ms = s.ms := rfl
@[simp] theorem recompute_lc (s : State) : (recompute s).lc = s.lc := rfl
@[simp] theorem recompute_rs (s : State) : (recompute s).rs = s.rs := rfl
@[simp] theorem recompute_jw (s : State) : (recompute s).jw = s.jw := rfl
@[simp] theorem recompute_line (s : State) : (recompute s).line = s.line := rfl
@[simp] theorem recompute_pending (s : State) : (recompute s).pending = s.pending := rfl

/-! ### setRegistration -/

@[simp] theorem setRegistration_inReset (image : StopImage) (s : State) : (setRegistration image s).inReset = s.inReset := rfl
@[simp] theorem setRegistration_part (image : StopImage) (s : State) : (setRegistration image s).part = s.part := rfl
@[simp] theorem setRegistration_run (image : StopImage) (s : State) : (setRegistration image s).run = s.run := rfl
@[simp] theorem setRegistration_attnEn (image : StopImage) (s : State) : (setRegistration image s).attnEn = s.attnEn := rfl
@[simp] theorem setRegistration_cause (image : StopImage) (s : State) : (setRegistration image s).cause = s.cause := rfl
@[simp] theorem setRegistration_mask (image : StopImage) (s : State) : (setRegistration image s).mask = s.mask := rfl
@[simp] theorem setRegistration_readData (image : StopImage) (s : State) : (setRegistration image s).readData = s.readData := rfl
@[simp] theorem setRegistration_clock (image : StopImage) (s : State) : (setRegistration image s).clock = s.clock := rfl
@[simp] theorem setRegistration_clockZeroed (image : StopImage) (s : State) : (setRegistration image s).clockZeroed = s.clockZeroed := rfl
@[simp] theorem setRegistration_mem (image : StopImage) (s : State) : (setRegistration image s).mem = s.mem := rfl
@[simp] theorem setRegistration_port (image : StopImage) (s : State) : (setRegistration image s).port = s.port := rfl
@[simp] theorem setRegistration_dl (image : StopImage) (s : State) : (setRegistration image s).dl = s.dl := rfl
@[simp] theorem setRegistration_ce (image : StopImage) (s : State) : (setRegistration image s).ce = s.ce := rfl
@[simp] theorem setRegistration_sq (image : StopImage) (s : State) : (setRegistration image s).sq = s.sq := rfl
@[simp] theorem setRegistration_cu (image : StopImage) (s : State) : (setRegistration image s).cu = s.cu := rfl
@[simp] theorem setRegistration_cs (image : StopImage) (s : State) : (setRegistration image s).cs = s.cs := rfl
@[simp] theorem setRegistration_ms (image : StopImage) (s : State) : (setRegistration image s).ms = s.ms := rfl
@[simp] theorem setRegistration_lc (image : StopImage) (s : State) : (setRegistration image s).lc = s.lc := rfl
@[simp] theorem setRegistration_rs (image : StopImage) (s : State) : (setRegistration image s).rs = s.rs := rfl
@[simp] theorem setRegistration_jw (image : StopImage) (s : State) : (setRegistration image s).jw = s.jw := rfl
@[simp] theorem setRegistration_line (image : StopImage) (s : State) : (setRegistration image s).line = s.line := rfl
@[simp] theorem setRegistration_pending (image : StopImage) (s : State) : (setRegistration image s).pending = s.pending := rfl

/-! ### setTutti -/

@[simp] theorem setTutti_inReset (on : Bool) (s : State) : (setTutti on s).inReset = s.inReset := rfl
@[simp] theorem setTutti_part (on : Bool) (s : State) : (setTutti on s).part = s.part := rfl
@[simp] theorem setTutti_run (on : Bool) (s : State) : (setTutti on s).run = s.run := rfl
@[simp] theorem setTutti_attnEn (on : Bool) (s : State) : (setTutti on s).attnEn = s.attnEn := rfl
@[simp] theorem setTutti_cause (on : Bool) (s : State) : (setTutti on s).cause = s.cause := rfl
@[simp] theorem setTutti_mask (on : Bool) (s : State) : (setTutti on s).mask = s.mask := rfl
@[simp] theorem setTutti_readData (on : Bool) (s : State) : (setTutti on s).readData = s.readData := rfl
@[simp] theorem setTutti_clock (on : Bool) (s : State) : (setTutti on s).clock = s.clock := rfl
@[simp] theorem setTutti_clockZeroed (on : Bool) (s : State) : (setTutti on s).clockZeroed = s.clockZeroed := rfl
@[simp] theorem setTutti_mem (on : Bool) (s : State) : (setTutti on s).mem = s.mem := rfl
@[simp] theorem setTutti_port (on : Bool) (s : State) : (setTutti on s).port = s.port := rfl
@[simp] theorem setTutti_dl (on : Bool) (s : State) : (setTutti on s).dl = s.dl := rfl
@[simp] theorem setTutti_ce (on : Bool) (s : State) : (setTutti on s).ce = s.ce := rfl
@[simp] theorem setTutti_sq (on : Bool) (s : State) : (setTutti on s).sq = s.sq := rfl
@[simp] theorem setTutti_cu (on : Bool) (s : State) : (setTutti on s).cu = s.cu := rfl
@[simp] theorem setTutti_cs (on : Bool) (s : State) : (setTutti on s).cs = s.cs := rfl
@[simp] theorem setTutti_ms (on : Bool) (s : State) : (setTutti on s).ms = s.ms := rfl
@[simp] theorem setTutti_lc (on : Bool) (s : State) : (setTutti on s).lc = s.lc := rfl
@[simp] theorem setTutti_rs (on : Bool) (s : State) : (setTutti on s).rs = s.rs := rfl
@[simp] theorem setTutti_jw (on : Bool) (s : State) : (setTutti on s).jw = s.jw := rfl
@[simp] theorem setTutti_line (on : Bool) (s : State) : (setTutti on s).line = s.line := rfl
@[simp] theorem setTutti_pending (on : Bool) (s : State) : (setTutti on s).pending = s.pending := rfl

/-! ### setTuttiImage -/

@[simp] theorem setTuttiImage_inReset (image : StopImage) (s : State) : (setTuttiImage image s).inReset = s.inReset := rfl
@[simp] theorem setTuttiImage_part (image : StopImage) (s : State) : (setTuttiImage image s).part = s.part := rfl
@[simp] theorem setTuttiImage_run (image : StopImage) (s : State) : (setTuttiImage image s).run = s.run := rfl
@[simp] theorem setTuttiImage_attnEn (image : StopImage) (s : State) : (setTuttiImage image s).attnEn = s.attnEn := rfl
@[simp] theorem setTuttiImage_cause (image : StopImage) (s : State) : (setTuttiImage image s).cause = s.cause := rfl
@[simp] theorem setTuttiImage_mask (image : StopImage) (s : State) : (setTuttiImage image s).mask = s.mask := rfl
@[simp] theorem setTuttiImage_readData (image : StopImage) (s : State) : (setTuttiImage image s).readData = s.readData := rfl
@[simp] theorem setTuttiImage_clock (image : StopImage) (s : State) : (setTuttiImage image s).clock = s.clock := rfl
@[simp] theorem setTuttiImage_clockZeroed (image : StopImage) (s : State) : (setTuttiImage image s).clockZeroed = s.clockZeroed := rfl
@[simp] theorem setTuttiImage_mem (image : StopImage) (s : State) : (setTuttiImage image s).mem = s.mem := rfl
@[simp] theorem setTuttiImage_port (image : StopImage) (s : State) : (setTuttiImage image s).port = s.port := rfl
@[simp] theorem setTuttiImage_dl (image : StopImage) (s : State) : (setTuttiImage image s).dl = s.dl := rfl
@[simp] theorem setTuttiImage_sq (image : StopImage) (s : State) : (setTuttiImage image s).sq = s.sq := rfl
@[simp] theorem setTuttiImage_cu (image : StopImage) (s : State) : (setTuttiImage image s).cu = s.cu := rfl
@[simp] theorem setTuttiImage_cs (image : StopImage) (s : State) : (setTuttiImage image s).cs = s.cs := rfl
@[simp] theorem setTuttiImage_ms (image : StopImage) (s : State) : (setTuttiImage image s).ms = s.ms := rfl
@[simp] theorem setTuttiImage_lc (image : StopImage) (s : State) : (setTuttiImage image s).lc = s.lc := rfl
@[simp] theorem setTuttiImage_rs (image : StopImage) (s : State) : (setTuttiImage image s).rs = s.rs := rfl
@[simp] theorem setTuttiImage_jw (image : StopImage) (s : State) : (setTuttiImage image s).jw = s.jw := rfl
@[simp] theorem setTuttiImage_line (image : StopImage) (s : State) : (setTuttiImage image s).line = s.line := rfl
@[simp] theorem setTuttiImage_pending (image : StopImage) (s : State) : (setTuttiImage image s).pending = s.pending := rfl

/-! ### setContactBit -/

@[simp] theorem setContactBit_inReset (stop : Nat) (b : Bool) (s : State) : (setContactBit stop b s).inReset = s.inReset := rfl
@[simp] theorem setContactBit_part (stop : Nat) (b : Bool) (s : State) : (setContactBit stop b s).part = s.part := rfl
@[simp] theorem setContactBit_run (stop : Nat) (b : Bool) (s : State) : (setContactBit stop b s).run = s.run := rfl
@[simp] theorem setContactBit_attnEn (stop : Nat) (b : Bool) (s : State) : (setContactBit stop b s).attnEn = s.attnEn := rfl
@[simp] theorem setContactBit_cause (stop : Nat) (b : Bool) (s : State) : (setContactBit stop b s).cause = s.cause := rfl
@[simp] theorem setContactBit_mask (stop : Nat) (b : Bool) (s : State) : (setContactBit stop b s).mask = s.mask := rfl
@[simp] theorem setContactBit_readData (stop : Nat) (b : Bool) (s : State) : (setContactBit stop b s).readData = s.readData := rfl
@[simp] theorem setContactBit_clock (stop : Nat) (b : Bool) (s : State) : (setContactBit stop b s).clock = s.clock := rfl
@[simp] theorem setContactBit_clockZeroed (stop : Nat) (b : Bool) (s : State) : (setContactBit stop b s).clockZeroed = s.clockZeroed := rfl
@[simp] theorem setContactBit_mem (stop : Nat) (b : Bool) (s : State) : (setContactBit stop b s).mem = s.mem := rfl
@[simp] theorem setContactBit_port (stop : Nat) (b : Bool) (s : State) : (setContactBit stop b s).port = s.port := rfl
@[simp] theorem setContactBit_dl (stop : Nat) (b : Bool) (s : State) : (setContactBit stop b s).dl = s.dl := rfl
@[simp] theorem setContactBit_ce (stop : Nat) (b : Bool) (s : State) : (setContactBit stop b s).ce = s.ce := rfl
@[simp] theorem setContactBit_sq (stop : Nat) (b : Bool) (s : State) : (setContactBit stop b s).sq = s.sq := rfl
@[simp] theorem setContactBit_cu (stop : Nat) (b : Bool) (s : State) : (setContactBit stop b s).cu = s.cu := rfl
@[simp] theorem setContactBit_ru (stop : Nat) (b : Bool) (s : State) : (setContactBit stop b s).ru = s.ru := rfl
@[simp] theorem setContactBit_ms (stop : Nat) (b : Bool) (s : State) : (setContactBit stop b s).ms = s.ms := rfl
@[simp] theorem setContactBit_lc (stop : Nat) (b : Bool) (s : State) : (setContactBit stop b s).lc = s.lc := rfl
@[simp] theorem setContactBit_rs (stop : Nat) (b : Bool) (s : State) : (setContactBit stop b s).rs = s.rs := rfl
@[simp] theorem setContactBit_jw (stop : Nat) (b : Bool) (s : State) : (setContactBit stop b s).jw = s.jw := rfl
@[simp] theorem setContactBit_line (stop : Nat) (b : Bool) (s : State) : (setContactBit stop b s).line = s.line := rfl
@[simp] theorem setContactBit_pending (stop : Nat) (b : Bool) (s : State) : (setContactBit stop b s).pending = s.pending := rfl

/-! ### updateBoard -/

@[simp] theorem updateBoard_inReset (i : Fin 16) (f : BoardLink → BoardLink) (s : State) : (updateBoard i f s).inReset = s.inReset := rfl
@[simp] theorem updateBoard_part (i : Fin 16) (f : BoardLink → BoardLink) (s : State) : (updateBoard i f s).part = s.part := rfl
@[simp] theorem updateBoard_run (i : Fin 16) (f : BoardLink → BoardLink) (s : State) : (updateBoard i f s).run = s.run := rfl
@[simp] theorem updateBoard_attnEn (i : Fin 16) (f : BoardLink → BoardLink) (s : State) : (updateBoard i f s).attnEn = s.attnEn := rfl
@[simp] theorem updateBoard_cause (i : Fin 16) (f : BoardLink → BoardLink) (s : State) : (updateBoard i f s).cause = s.cause := rfl
@[simp] theorem updateBoard_mask (i : Fin 16) (f : BoardLink → BoardLink) (s : State) : (updateBoard i f s).mask = s.mask := rfl
@[simp] theorem updateBoard_readData (i : Fin 16) (f : BoardLink → BoardLink) (s : State) : (updateBoard i f s).readData = s.readData := rfl
@[simp] theorem updateBoard_clock (i : Fin 16) (f : BoardLink → BoardLink) (s : State) : (updateBoard i f s).clock = s.clock := rfl
@[simp] theorem updateBoard_clockZeroed (i : Fin 16) (f : BoardLink → BoardLink) (s : State) : (updateBoard i f s).clockZeroed = s.clockZeroed := rfl
@[simp] theorem updateBoard_mem (i : Fin 16) (f : BoardLink → BoardLink) (s : State) : (updateBoard i f s).mem = s.mem := rfl
@[simp] theorem updateBoard_port (i : Fin 16) (f : BoardLink → BoardLink) (s : State) : (updateBoard i f s).port = s.port := rfl
@[simp] theorem updateBoard_dl (i : Fin 16) (f : BoardLink → BoardLink) (s : State) : (updateBoard i f s).dl = s.dl := rfl
@[simp] theorem updateBoard_ce (i : Fin 16) (f : BoardLink → BoardLink) (s : State) : (updateBoard i f s).ce = s.ce := rfl
@[simp] theorem updateBoard_sq (i : Fin 16) (f : BoardLink → BoardLink) (s : State) : (updateBoard i f s).sq = s.sq := rfl
@[simp] theorem updateBoard_cu (i : Fin 16) (f : BoardLink → BoardLink) (s : State) : (updateBoard i f s).cu = s.cu := rfl
@[simp] theorem updateBoard_cs (i : Fin 16) (f : BoardLink → BoardLink) (s : State) : (updateBoard i f s).cs = s.cs := rfl
@[simp] theorem updateBoard_ru (i : Fin 16) (f : BoardLink → BoardLink) (s : State) : (updateBoard i f s).ru = s.ru := rfl
@[simp] theorem updateBoard_ms (i : Fin 16) (f : BoardLink → BoardLink) (s : State) : (updateBoard i f s).ms = s.ms := rfl
@[simp] theorem updateBoard_rs (i : Fin 16) (f : BoardLink → BoardLink) (s : State) : (updateBoard i f s).rs = s.rs := rfl
@[simp] theorem updateBoard_jw (i : Fin 16) (f : BoardLink → BoardLink) (s : State) : (updateBoard i f s).jw = s.jw := rfl
@[simp] theorem updateBoard_line (i : Fin 16) (f : BoardLink → BoardLink) (s : State) : (updateBoard i f s).line = s.line := rfl
@[simp] theorem updateBoard_pending (i : Fin 16) (f : BoardLink → BoardLink) (s : State) : (updateBoard i f s).pending = s.pending := rfl

/-! ### idleLine -/

@[simp] theorem idleLine_inReset (s : State) : (idleLine s).inReset = s.inReset := rfl
@[simp] theorem idleLine_part (s : State) : (idleLine s).part = s.part := rfl
@[simp] theorem idleLine_run (s : State) : (idleLine s).run = s.run := rfl
@[simp] theorem idleLine_attnEn (s : State) : (idleLine s).attnEn = s.attnEn := rfl
@[simp] theorem idleLine_cause (s : State) : (idleLine s).cause = s.cause := rfl
@[simp] theorem idleLine_mask (s : State) : (idleLine s).mask = s.mask := rfl
@[simp] theorem idleLine_readData (s : State) : (idleLine s).readData = s.readData := rfl
@[simp] theorem idleLine_clock (s : State) : (idleLine s).clock = s.clock := rfl
@[simp] theorem idleLine_clockZeroed (s : State) : (idleLine s).clockZeroed = s.clockZeroed := rfl
@[simp] theorem idleLine_mem (s : State) : (idleLine s).mem = s.mem := rfl
@[simp] theorem idleLine_port (s : State) : (idleLine s).port = s.port := rfl
@[simp] theorem idleLine_dl (s : State) : (idleLine s).dl = s.dl := rfl
@[simp] theorem idleLine_ce (s : State) : (idleLine s).ce = s.ce := rfl
@[simp] theorem idleLine_sq (s : State) : (idleLine s).sq = s.sq := rfl
@[simp] theorem idleLine_cu (s : State) : (idleLine s).cu = s.cu := rfl
@[simp] theorem idleLine_cs (s : State) : (idleLine s).cs = s.cs := rfl
@[simp] theorem idleLine_ru (s : State) : (idleLine s).ru = s.ru := rfl
@[simp] theorem idleLine_ms (s : State) : (idleLine s).ms = s.ms := rfl
@[simp] theorem idleLine_rs (s : State) : (idleLine s).rs = s.rs := rfl
@[simp] theorem idleLine_jw (s : State) : (idleLine s).jw = s.jw := rfl
@[simp] theorem idleLine_line (s : State) : (idleLine s).line = s.line := rfl
@[simp] theorem idleLine_pending (s : State) : (idleLine s).pending = s.pending := rfl

/-! ### setWriter -/

@[simp] theorem setWriter_inReset (p : WriterPhase) (s : State) : (setWriter p s).inReset = s.inReset := rfl
@[simp] theorem setWriter_part (p : WriterPhase) (s : State) : (setWriter p s).part = s.part := rfl
@[simp] theorem setWriter_run (p : WriterPhase) (s : State) : (setWriter p s).run = s.run := rfl
@[simp] theorem setWriter_attnEn (p : WriterPhase) (s : State) : (setWriter p s).attnEn = s.attnEn := rfl
@[simp] theorem setWriter_cause (p : WriterPhase) (s : State) : (setWriter p s).cause = s.cause := rfl
@[simp] theorem setWriter_mask (p : WriterPhase) (s : State) : (setWriter p s).mask = s.mask := rfl
@[simp] theorem setWriter_readData (p : WriterPhase) (s : State) : (setWriter p s).readData = s.readData := rfl
@[simp] theorem setWriter_clock (p : WriterPhase) (s : State) : (setWriter p s).clock = s.clock := rfl
@[simp] theorem setWriter_clockZeroed (p : WriterPhase) (s : State) : (setWriter p s).clockZeroed = s.clockZeroed := rfl
@[simp] theorem setWriter_mem (p : WriterPhase) (s : State) : (setWriter p s).mem = s.mem := rfl
@[simp] theorem setWriter_port (p : WriterPhase) (s : State) : (setWriter p s).port = s.port := rfl
@[simp] theorem setWriter_dl (p : WriterPhase) (s : State) : (setWriter p s).dl = s.dl := rfl
@[simp] theorem setWriter_ce (p : WriterPhase) (s : State) : (setWriter p s).ce = s.ce := rfl
@[simp] theorem setWriter_sq (p : WriterPhase) (s : State) : (setWriter p s).sq = s.sq := rfl
@[simp] theorem setWriter_cu (p : WriterPhase) (s : State) : (setWriter p s).cu = s.cu := rfl
@[simp] theorem setWriter_cs (p : WriterPhase) (s : State) : (setWriter p s).cs = s.cs := rfl
@[simp] theorem setWriter_ru (p : WriterPhase) (s : State) : (setWriter p s).ru = s.ru := rfl
@[simp] theorem setWriter_ms (p : WriterPhase) (s : State) : (setWriter p s).ms = s.ms := rfl
@[simp] theorem setWriter_lc (p : WriterPhase) (s : State) : (setWriter p s).lc = s.lc := rfl
@[simp] theorem setWriter_rs (p : WriterPhase) (s : State) : (setWriter p s).rs = s.rs := rfl
@[simp] theorem setWriter_line (p : WriterPhase) (s : State) : (setWriter p s).line = s.line := rfl
@[simp] theorem setWriter_pending (p : WriterPhase) (s : State) : (setWriter p s).pending = s.pending := rfl

/-! ### What they write -/

@[simp] theorem raise_cause (f : CauseFlag) (s : State) : (raise f s).cause = setBit s.cause f.bit true := rfl
@[simp] theorem changePart_part (p : PartState) (s : State) : (changePart p s).part = p := rfl
@[simp] theorem changePart_cause (p : PartState) (s : State) :
    (changePart p s).cause = setBit s.cause CauseFlag.state.bit true := rfl
@[simp] theorem reachTime_clock (due : BitVec 32) (s : State) :
    (reachTime due s).clock = s.clock + BitVec.ofNat 32 (ahead s.clock due) := rfl
@[simp] theorem recompute_ri (s : State) : (recompute s).ru.ri = s.ru.ri := rfl
@[simp] theorem recompute_tutti (s : State) : (recompute s).ru.tutti = s.ru.tutti := rfl
@[simp] theorem recompute_mirror (s : State) : (recompute s).ru.mirror = s.ru.mirror := rfl
@[simp] theorem recompute_si (s : State) : (recompute s).ru.si = s.speaking := rfl
@[simp] theorem setRegistration_ri (image : StopImage) (s : State) : (setRegistration image s).ru.ri = image := rfl
@[simp] theorem setRegistration_tutti (image : StopImage) (s : State) :
    (setRegistration image s).ru.tutti = s.ru.tutti := rfl
@[simp] theorem setRegistration_mirror (image : StopImage) (s : State) :
    (setRegistration image s).ru.mirror = s.ru.mirror := rfl
@[simp] theorem setTutti_ri (on : Bool) (s : State) : (setTutti on s).ru.ri = s.ru.ri := rfl
@[simp] theorem setTutti_tutti (on : Bool) (s : State) : (setTutti on s).ru.tutti = on := rfl
@[simp] theorem setTutti_mirror (on : Bool) (s : State) : (setTutti on s).ru.mirror = s.ru.mirror := rfl
@[simp] theorem setTuttiImage_ri (image : StopImage) (s : State) : (setTuttiImage image s).ru.ri = s.ru.ri := rfl
@[simp] theorem setTuttiImage_ce (image : StopImage) (s : State) :
    (setTuttiImage image s).ce = { s.ce with ti := image } := rfl
@[simp] theorem setContactBit_ci (stop : Nat) (b : Bool) (s : State) :
    (setContactBit stop b s).cs.ci = setBit s.cs.ci stop b := rfl
@[simp] theorem setWriter_jw (p : WriterPhase) (s : State) : (setWriter p s).jw = { s.jw with phase := p } := rfl

/-! ### The ports of the blocks -/

@[simp] theorem Port.get_put (p : Port) (b : Block) (q : BlockPort) : (p.put b q).get b = q := by cases b <;> rfl

theorem Port.get_put_of_ne (p : Port) {b c : Block} (q : BlockPort) (h : c ≠ b) : (p.put b q).get c = p.get c := by
  cases b <;> cases c <;> first | rfl | exact absurd rfl h

@[simp] theorem Port.get_served (p : Port) (b c : Block) : ({ p with served := b } : Port).get c = p.get c := by
  cases c <;> rfl

@[simp] theorem Port.put_served (p : Port) (b : Block) (q : BlockPort) : (p.put b q).served = p.served := by
  cases b <;> rfl

end Sys2Proof.Machine
end

