-- ==== Sys2Proof/Laws/Frames.lean ====
section
/-! SUPPORT. What each operation can touch, said once: `Same ps s t` says that two states agree in every field but
those of `ps`; the lemma of an operation, tagged for `simp`, passes through it where `ps` names all that it touches.
`Same.get` then gives any one field. -/

namespace Sys2Proof.Machine

theorem agree.refl (p : Part) (s : State) : agree p s s := by cases p <;> rfl

theorem agree.trans {p : Part} {s t u : State} (h : agree p s t) (k : agree p t u) : agree p s u := by
  cases p <;> exact Eq.trans h k

theorem agree.symm {p : Part} {s t : State} (h : agree p s t) : agree p t s := by cases p <;> exact Eq.symm h

/-- One field of two states that agree. -/
theorem Same.get {ps : List Part} {s t : State} (h : Same ps s t) (p : Part) (hp : p ∉ ps := by decide) :
    agree p s t := h p hp

@[simp] theorem Same.refl (ps : List Part) (s : State) : Same ps s s := fun p _ => agree.refl p s

theorem Same.trans {ps : List Part} {s t u : State} (h : Same ps s t) (k : Same ps t u) : Same ps s u :=
  fun p hp => (h p hp).trans (k p hp)

theorem Same.mono {ps qs : List Part} {s t : State} (h : Same ps s t) (k : ps ⊆ qs) : Same qs s t :=
  fun p hp => h p (fun m => hp (k m))

/-- An operation that touches nothing outside `ps` passes through `Same ps`. -/
theorem Same.through {base ps : List Part} {s t u : State} (k : base ⊆ ps) (h : Same base t u) :
    Same ps s u ↔ Same ps s t :=
  ⟨fun m => m.trans (fun p hp => (h.mono k p hp).symm), fun m => m.trans (h.mono k)⟩

/-! ### Updates of a field -/

@[simp] theorem same_inReset {ps : List Part} {s t : State} (h : [Part.inReset] ⊆ ps) x :
    Same ps s { t with inReset := x } ↔ Same ps s t :=
  Same.through h (fun p hp => by cases p <;> first | rfl | exact absurd (by decide) hp)

@[simp] theorem same_part {ps : List Part} {s t : State} (h : [Part.part] ⊆ ps) x :
    Same ps s { t with part := x } ↔ Same ps s t :=
  Same.through h (fun p hp => by cases p <;> first | rfl | exact absurd (by decide) hp)

@[simp] theorem same_run {ps : List Part} {s t : State} (h : [Part.run] ⊆ ps) x :
    Same ps s { t with run := x } ↔ Same ps s t :=
  Same.through h (fun p hp => by cases p <;> first | rfl | exact absurd (by decide) hp)

@[simp] theorem same_attnEn {ps : List Part} {s t : State} (h : [Part.attnEn] ⊆ ps) x :
    Same ps s { t with attnEn := x } ↔ Same ps s t :=
  Same.through h (fun p hp => by cases p <;> first | rfl | exact absurd (by decide) hp)

@[simp] theorem same_cause {ps : List Part} {s t : State} (h : [Part.cause] ⊆ ps) x :
    Same ps s { t with cause := x } ↔ Same ps s t :=
  Same.through h (fun p hp => by cases p <;> first | rfl | exact absurd (by decide) hp)

@[simp] theorem same_mask {ps : List Part} {s t : State} (h : [Part.mask] ⊆ ps) x :
    Same ps s { t with mask := x } ↔ Same ps s t :=
  Same.through h (fun p hp => by cases p <;> first | rfl | exact absurd (by decide) hp)

@[simp] theorem same_readData {ps : List Part} {s t : State} (h : [Part.readData] ⊆ ps) x :
    Same ps s { t with readData := x } ↔ Same ps s t :=
  Same.through h (fun p hp => by cases p <;> first | rfl | exact absurd (by decide) hp)

@[simp] theorem same_clock {ps : List Part} {s t : State} (h : [Part.clock] ⊆ ps) x :
    Same ps s { t with clock := x } ↔ Same ps s t :=
  Same.through h (fun p hp => by cases p <;> first | rfl | exact absurd (by decide) hp)

@[simp] theorem same_clockZeroed {ps : List Part} {s t : State} (h : [Part.clockZeroed] ⊆ ps) x :
    Same ps s { t with clockZeroed := x } ↔ Same ps s t :=
  Same.through h (fun p hp => by cases p <;> first | rfl | exact absurd (by decide) hp)

@[simp] theorem same_mem {ps : List Part} {s t : State} (h : [Part.mem] ⊆ ps) x :
    Same ps s { t with mem := x } ↔ Same ps s t :=
  Same.through h (fun p hp => by cases p <;> first | rfl | exact absurd (by decide) hp)

@[simp] theorem same_port {ps : List Part} {s t : State} (h : [Part.port] ⊆ ps) x :
    Same ps s { t with port := x } ↔ Same ps s t :=
  Same.through h (fun p hp => by cases p <;> first | rfl | exact absurd (by decide) hp)

@[simp] theorem same_dl {ps : List Part} {s t : State} (h : [Part.dl] ⊆ ps) x :
    Same ps s { t with dl := x } ↔ Same ps s t :=
  Same.through h (fun p hp => by cases p <;> first | rfl | exact absurd (by decide) hp)

@[simp] theorem same_ce {ps : List Part} {s t : State} (h : [Part.ce] ⊆ ps) x :
    Same ps s { t with ce := x } ↔ Same ps s t :=
  Same.through h (fun p hp => by cases p <;> first | rfl | exact absurd (by decide) hp)

@[simp] theorem same_sq {ps : List Part} {s t : State} (h : [Part.sq] ⊆ ps) x :
    Same ps s { t with sq := x } ↔ Same ps s t :=
  Same.through h (fun p hp => by cases p <;> first | rfl | exact absurd (by decide) hp)

@[simp] theorem same_cu {ps : List Part} {s t : State} (h : [Part.cu] ⊆ ps) x :
    Same ps s { t with cu := x } ↔ Same ps s t :=
  Same.through h (fun p hp => by cases p <;> first | rfl | exact absurd (by decide) hp)

@[simp] theorem same_cs {ps : List Part} {s t : State} (h : [Part.cs] ⊆ ps) x :
    Same ps s { t with cs := x } ↔ Same ps s t :=
  Same.through h (fun p hp => by cases p <;> first | rfl | exact absurd (by decide) hp)

@[simp] theorem same_ru {ps : List Part} {s t : State} (h : [Part.ru] ⊆ ps) x :
    Same ps s { t with ru := x } ↔ Same ps s t :=
  Same.through h (fun p hp => by cases p <;> first | rfl | exact absurd (by decide) hp)

@[simp] theorem same_ms {ps : List Part} {s t : State} (h : [Part.ms] ⊆ ps) x :
    Same ps s { t with ms := x } ↔ Same ps s t :=
  Same.through h (fun p hp => by cases p <;> first | rfl | exact absurd (by decide) hp)

@[simp] theorem same_lc {ps : List Part} {s t : State} (h : [Part.lc] ⊆ ps) x :
    Same ps s { t with lc := x } ↔ Same ps s t :=
  Same.through h (fun p hp => by cases p <;> first | rfl | exact absurd (by decide) hp)

@[simp] theorem same_rs {ps : List Part} {s t : State} (h : [Part.rs] ⊆ ps) x :
    Same ps s { t with rs := x } ↔ Same ps s t :=
  Same.through h (fun p hp => by cases p <;> first | rfl | exact absurd (by decide) hp)

@[simp] theorem same_jw {ps : List Part} {s t : State} (h : [Part.jw] ⊆ ps) x :
    Same ps s { t with jw := x } ↔ Same ps s t :=
  Same.through h (fun p hp => by cases p <;> first | rfl | exact absurd (by decide) hp)

@[simp] theorem same_line {ps : List Part} {s t : State} (h : [Part.line] ⊆ ps) x :
    Same ps s { t with line := x } ↔ Same ps s t :=
  Same.through h (fun p hp => by cases p <;> first | rfl | exact absurd (by decide) hp)

@[simp] theorem same_pending {ps : List Part} {s t : State} (h : [Part.pending] ⊆ ps) x :
    Same ps s { t with pending := x } ↔ Same ps s t :=
  Same.through h (fun p hp => by cases p <;> first | rfl | exact absurd (by decide) hp)

/-! ### The basic updates -/

@[simp] theorem raise_same {ps : List Part} {s t : State} (f : CauseFlag) (h : [Part.cause] ⊆ ps) :
    Same ps s (raise f t) ↔ Same ps s t :=
  Same.through h (fun p hp => by cases p <;> first | rfl | exact absurd (by decide) hp)

@[simp] theorem enqueueAccesses_same {ps : List Part} {s t : State} (b : Block) (as : List Access) (h : [Part.port] ⊆ ps) :
    Same ps s (enqueueAccesses b as t) ↔ Same ps s t :=
  Same.through h (fun p hp => by cases p <;> first | rfl | exact absurd (by decide) hp)

@[simp] theorem startRead_same {ps : List Part} {s t : State} (b : Block) (a n : Nat) (h : [Part.port] ⊆ ps) :
    Same ps s (startRead b a n t) ↔ Same ps s t :=
  Same.through h (fun p hp => by cases p <;> first | rfl | exact absurd (by decide) hp)

@[simp] theorem startWrite_same {ps : List Part} {s t : State} (b : Block) (p : Purpose) (a : Nat) (bytes : List Byte) (h : [Part.port] ⊆ ps) :
    Same ps s (startWrite b p a bytes t) ↔ Same ps s t :=
  Same.through h (fun p hp => by cases p <;> first | rfl | exact absurd (by decide) hp)

@[simp] theorem keepAccesses_same {ps : List Part} {s t : State} (b : Block) (keep : Access → Bool) (h : [Part.port] ⊆ ps) :
    Same ps s (keepAccesses b keep t) ↔ Same ps s t :=
  Same.through h (fun p hp => by cases p <;> first | rfl | exact absurd (by decide) hp)

@[simp] theorem reachTime_same {ps : List Part} {s t : State} (due : BitVec 32) (h : [Part.clock] ⊆ ps) :
    Same ps s (reachTime due t) ↔ Same ps s t :=
  Same.through h (fun p hp => by cases p <;> first | rfl | exact absurd (by decide) hp)

@[simp] theorem changePart_same {ps : List Part} {s t : State} (p : PartState) (h : [Part.part, .cause] ⊆ ps) :
    Same ps s (changePart p t) ↔ Same ps s t :=
  Same.through h (fun p hp => by cases p <;> first | rfl | exact absurd (by decide) hp)

@[simp] theorem recompute_same {ps : List Part} {s t : State} (h : [Part.ru] ⊆ ps) :
    Same ps s (recompute t) ↔ Same ps s t :=
  Same.through h (fun p hp => by cases p <;> first | rfl | exact absurd (by decide) hp)

@[simp] theorem setRegistration_same {ps : List Part} {s t : State} (image : StopImage) (h : [Part.ru] ⊆ ps) :
    Same ps s (setRegistration image t) ↔ Same ps s t :=
  Same.through h (fun p hp => by cases p <;> first | rfl | exact absurd (by decide) hp)

@[simp] theorem setTutti_same {ps : List Part} {s t : State} (on : Bool) (h : [Part.ru] ⊆ ps) :
    Same ps s (setTutti on t) ↔ Same ps s t :=
  Same.through h (fun p hp => by cases p <;> first | rfl | exact absurd (by decide) hp)

@[simp] theorem setTuttiImage_same {ps : List Part} {s t : State} (image : StopImage) (h : [Part.ru, .ce] ⊆ ps) :
    Same ps s (setTuttiImage image t) ↔ Same ps s t :=
  Same.through h (fun p hp => by cases p <;> first | rfl | exact absurd (by decide) hp)

@[simp] theorem setContactBit_same {ps : List Part} {s t : State} (stop : Nat) (b : Bool) (h : [Part.cs] ⊆ ps) :
    Same ps s (setContactBit stop b t) ↔ Same ps s t :=
  Same.through h (fun p hp => by cases p <;> first | rfl | exact absurd (by decide) hp)

@[simp] theorem updateBoard_same {ps : List Part} {s t : State} (i : Fin 16) (f : BoardLink → BoardLink) (h : [Part.lc] ⊆ ps) :
    Same ps s (updateBoard i f t) ↔ Same ps s t :=
  Same.through h (fun p hp => by cases p <;> first | rfl | exact absurd (by decide) hp)

@[simp] theorem idleLine_same {ps : List Part} {s t : State} (h : [Part.lc] ⊆ ps) :
    Same ps s (idleLine t) ↔ Same ps s t :=
  Same.through h (fun p hp => by cases p <;> first | rfl | exact absurd (by decide) hp)

@[simp] theorem setWriter_same {ps : List Part} {s t : State} (p : WriterPhase) (h : [Part.jw] ⊆ ps) :
    Same ps s (setWriter p t) ↔ Same ps s t :=
  Same.through h (fun p hp => by cases p <;> first | rfl | exact absurd (by decide) hp)

@[simp] theorem markImages_same {ps : List Part} {s t : State} (h : [Part.ru] ⊆ ps) :
    Same ps s (markImages t) ↔ Same ps s t :=
  Same.through h (fun p hp => by cases p <;> first | rfl | exact absurd (by decide) hp)

@[simp] theorem markMotion_same {ps : List Part} {s t : State} (h : [Part.ms] ⊆ ps) :
    Same ps s (markMotion t) ↔ Same ps s t :=
  Same.through h (fun p hp => by cases p <;> first | rfl | exact absurd (by decide) hp)

@[simp] theorem markCrescendo_same {ps : List Part} {s t : State} (h : [Part.cu] ⊆ ps) :
    Same ps s (markCrescendo t) ↔ Same ps s t :=
  Same.through h (fun p hp => by cases p <;> first | rfl | exact absurd (by decide) hp)

@[simp] theorem markStale_same {ps : List Part} {s t : State} (b : State) (h : [Part.ru, .cu, .ms, .lc] ⊆ ps) :
    Same ps s (markStale b t) ↔ Same ps s t :=
  Same.through h (fun p hp => by cases p <;> first | rfl | exact absurd (by decide) hp)

@[simp] theorem loseShoe_same {ps : List Part} {s t : State} (h : [Part.cu] ⊆ ps) :
    Same ps s (loseShoe t) ↔ Same ps s t :=
  Same.through h (fun p hp => by cases p <;> first | rfl | exact absurd (by decide) hp)

@[simp] theorem takePosition_same {ps : List Part} {s t : State} (q : Nat) (h : [Part.cu, .ru] ⊆ ps) :
    Same ps s (takePosition q t) ↔ Same ps s t :=
  Same.through h (fun p hp => by cases p <;> first | rfl | exact absurd (by decide) hp)

@[simp] theorem zeroClock_same {ps : List Part} {s t : State} (h : [Part.clock, .clockZeroed] ⊆ ps) :
    Same ps s (zeroClock t) ↔ Same ps s t :=
  Same.through h (fun p hp => by cases p <;> first | rfl | exact absurd (by decide) hp)

@[simp] theorem restartRounds_same {ps : List Part} {s t : State} (h : [Part.lc] ⊆ ps) :
    Same ps s (restartRounds t) ↔ Same ps s t :=
  Same.through h (fun p hp => by cases p <;> first | rfl | exact absurd (by decide) hp)

@[simp] theorem startPulse_same {ps : List Part} {s t : State} (c : CoilCommand) (h : [Part.ms] ⊆ ps) :
    Same ps s (startPulse t c) ↔ Same ps s t :=
  Same.through h (fun p hp => by cases p <;> first | rfl | exact absurd (by decide) hp)

/-! ### The composed operations -/

@[simp] theorem serveBlock_same {ps : List Part} {s t : State} (b : Block) (h : [Part.mem, .port] ⊆ ps) :
    Same ps s (serveBlock b t) ↔ Same ps s t :=
  Same.through h (by
    unfold serveBlock
    dsimp only
    split <;> (intro p hp; cases p <;> first | rfl | exact absurd (by decide) hp))

theorem serveNext_same {ps : List Part} {s t u : State} (h : [Part.mem, .port] ⊆ ps) (k : serveNext t = some u) :
    Same ps s u ↔ Same ps s t := by
  unfold serveNext at k
  cases hb : t.port.granted with
  | none => simp [hb] at k
  | some b =>
    rw [hb] at k
    cases k
    exact serveBlock_same b h

@[simp] theorem serveUntil_same {ps : List Part} {s t : State} {b : Block} {done : BlockPort → Bool} {n : Nat}
    (h : [Part.mem, .port] ⊆ ps) : Same ps s (serveUntil b done n t) ↔ Same ps s t := by
  induction n generalizing t with
  | zero => exact Iff.rfl
  | succ n ih =>
    unfold serveUntil
    split
    · exact Iff.rfl
    · split
      · rename_i u hu
        rw [ih, serveNext_same h hu]
      · exact Iff.rfl

theorem foldl_same {ps : List Part} {α : Type} (f : State → α → State) (h : ∀ s a, Same ps s (f s a))
    (l : List α) (s : State) : Same ps s (l.foldl f s) := by
  induction l generalizing s with
  | nil => simp
  | cons a l ih => exact (h s a).trans (ih (f s a))

@[simp] theorem finishRead_same {ps : List Part} {s t : State} (b : Block) (h : [Part.mem, .port] ⊆ ps) :
    Same ps s (finishRead b t) ↔ Same ps s t :=
  Same.through h (by unfold finishRead; exact (serveUntil_same (List.Subset.refl _)).2 (Same.refl _ _))

@[simp] theorem finishWrite_same {ps : List Part} {s t : State} (b : Block) (p : Purpose) (h : [Part.mem, .port] ⊆ ps) :
    Same ps s (finishWrite b p t) ↔ Same ps s t :=
  Same.through h (by unfold finishWrite; exact (serveUntil_same (List.Subset.refl _)).2 (Same.refl _ _))

@[simp] theorem loseEntry_same {ps : List Part} {s t : State} (h : [Part.jw, .port] ⊆ ps) :
    Same ps s (loseEntry t) ↔ Same ps s t :=
  Same.through h (by simp [loseEntry])

@[simp] theorem takeEntry_same {ps : List Part} {s t : State} (h : [Part.jw, .port] ⊆ ps) :
    Same ps s (takeEntry t) ↔ Same ps s t :=
  Same.through h (by unfold takeEntry; split <;> simp)

@[simp] theorem journal_same {ps : List Part} {s t : State} (e : JournalEntry) (h : [Part.jw, .port] ⊆ ps) :
    Same ps s (journal e t) ↔ Same ps s t :=
  Same.through h (by unfold journal; split <;> simp)

@[simp] theorem complete_same {ps : List Part} {s t : State} (c : Nat) (r : RequestResult) (v : Nat) (h : [Part.rs, .port] ⊆ ps) :
    Same ps s (complete c r v t) ↔ Same ps s t :=
  Same.through h (by unfold complete; split <;> simp)

@[simp] theorem completeIf_same {ps : List Part} {s t : State} (c : Option Nat) (r : RequestResult) (v : Nat) (h : [Part.rs, .port] ⊆ ps) :
    Same ps s (completeIf c r v t) ↔ Same ps s t :=
  Same.through h (by unfold completeIf; split <;> simp)

@[simp] theorem abandonIfFull_same {ps : List Part} {s t : State} (b : Block) (f : Bool) (h : [Part.port] ⊆ ps) :
    Same ps s (abandonIfFull b f t) ↔ Same ps s t :=
  Same.through h (by unfold abandonIfFull; split <;> simp)

@[simp] theorem beginImageUpdate_same {ps : List Part} {s t : State} (h : [Part.ru, .port] ⊆ ps) :
    Same ps s (beginImageUpdate t) ↔ Same ps s t :=
  Same.through h (by
    unfold beginImageUpdate
    dsimp only
    split <;> simp)

@[simp] theorem beginCrescendoUpdate_same {ps : List Part} {s t : State} (h : [Part.cu, .port] ⊆ ps) :
    Same ps s (beginCrescendoUpdate t) ↔ Same ps s t :=
  Same.through h (by
    unfold beginCrescendoUpdate
    dsimp only
    split <;> simp)

@[simp] theorem beginMotionUpdate_same {ps : List Part} {s t : State} (h : [Part.ms, .port] ⊆ ps) :
    Same ps s (beginMotionUpdate t) ↔ Same ps s t :=
  Same.through h (by
    unfold beginMotionUpdate
    dsimp only
    split <;> simp)

@[simp] theorem beginLinkUpdate_same {ps : List Part} {s t : State} (h : [Part.lc, .port] ⊆ ps) :
    Same ps s (beginLinkUpdate t) ↔ Same ps s t :=
  Same.through h (by
    unfold beginLinkUpdate
    dsimp only
    split <;> simp)

@[simp] theorem beginUpdates_same {ps : List Part} {s t : State} (h : [Part.ru, .cu, .ms, .lc, .port] ⊆ ps) :
    Same ps s (beginUpdates t) ↔ Same ps s t :=
  Same.through h (by simp [beginUpdates])

@[simp] theorem writeEngineMirror_same {ps : List Part} {s t : State} (place v : Nat) (h : [Part.port] ⊆ ps) :
    Same ps s (writeEngineMirror place v t) ↔ Same ps s t :=
  Same.through h (by simp [writeEngineMirror])

@[simp] theorem setLevel_same {ps : List Part} {s t : State} (v : Nat) (h : [Part.ce, .port] ⊆ ps) :
    Same ps s (setLevel v t) ↔ Same ps s t :=
  Same.through h (by simp [setLevel])

@[simp] theorem setCapture_same {ps : List Part} {s t : State} (e : Bool) (c : Byte) (h : [Part.ce, .port] ⊆ ps) :
    Same ps s (setCapture e c t) ↔ Same ps s t :=
  Same.through h (by simp [setCapture])

@[simp] theorem setActionQueue_same {ps : List Part} {s t : State} (q : List Action) (h : [Part.ce, .port] ⊆ ps) :
    Same ps s (setActionQueue q t) ↔ Same ps s t :=
  Same.through h (by unfold setActionQueue; split <;> simp)

@[simp] theorem setUndo_same {ps : List Part} {s t : State} (u : List StopImage) (h : [Part.ce, .port] ⊆ ps) :
    Same ps s (setUndo u t) ↔ Same ps s t :=
  Same.through h (by unfold setUndo; split <;> simp)

@[simp] theorem setJob_same {ps : List Part} {s t : State} (j : Option EngineJob) (h : [Part.ce, .port] ⊆ ps) :
    Same ps s (setJob j t) ↔ Same ps s t :=
  Same.through h (by
    unfold setJob
    dsimp only
    split <;> simp)

@[simp] theorem writeEngineMirrors_same {ps : List Part} {s t : State} (h : [Part.port] ⊆ ps) :
    Same ps s (writeEngineMirrors t) ↔ Same ps s t :=
  Same.through h (by simp [writeEngineMirrors])

@[simp] theorem setPosition_same {ps : List Part} {s t : State} (p : Option Nat) (h : [Part.sq, .port] ⊆ ps) :
    Same ps s (setPosition p t) ↔ Same ps s t :=
  Same.through h (by simp [setPosition])

@[simp] theorem setStepList_same {ps : List Part} {s t : State} (l : List StepRequest) (h : [Part.sq, .port] ⊆ ps) :
    Same ps s (setStepList l t) ↔ Same ps s t :=
  Same.through h (by unfold setStepList; split <;> simp)

@[simp] theorem writeReport_same {ps : List Part} {s t : State} (p : Purpose) (h : [Part.port] ⊆ ps) :
    Same ps s (writeReport p t) ↔ Same ps s t :=
  Same.through h (by simp [writeReport])

@[simp] theorem examineDispatch_same {ps : List Part} {s t : State} (h : [Part.ms, .lc] ⊆ ps) :
    Same ps s (examineDispatch t) ↔ Same ps s t :=
  Same.through h (by
    unfold examineDispatch
    dsimp only
    split <;> (intro p hp; cases p <;> first | rfl | exact absurd (by decide) hp))

@[simp] theorem enqueueMoves_same {ps : List Part} {s t : State} (m : StopImage) (h : [Part.ms, .lc] ⊆ ps) :
    Same ps s (enqueueMoves m t) ↔ Same ps s t :=
  Same.through h (by simp [enqueueMoves])

@[simp] theorem applyChangeSet_same {ps : List Part} {s t : State} (c : ChangeSet) (h : [Part.ru, .ms, .lc] ⊆ ps) :
    Same ps s (applyChangeSet c t) ↔ Same ps s t :=
  Same.through h (by simp [applyChangeSet])

@[simp] theorem endPulse_same {ps : List Part} {s t : State} (n : Nat) (h : [Part.ms, .lc] ⊆ ps) :
    Same ps s (endPulse n t) ↔ Same ps s t :=
  Same.through h (by simp [endPulse])

@[simp] theorem sendToTail_same {ps : List Part} {s t : State} (e : MotionEntry) (h : [Part.ms, .lc] ⊆ ps) :
    Same ps s (sendToTail e t) ↔ Same ps s t :=
  Same.through h (by simp [sendToTail])

@[simp] theorem declareFault_same {ps : List Part} {s t : State} (e : MotionEntry) (h : [Part.ms, .ru, .jw, .port] ⊆ ps) :
    Same ps s (declareFault e t) ↔ Same ps s t :=
  Same.through h (by simp [declareFault])

@[simp] theorem endSettle_same {ps : List Part} {s t : State} (e : MotionEntry) (h : [Part.ms, .lc, .ru, .jw, .port] ⊆ ps) :
    Same ps s (endSettle e t) ↔ Same ps s t :=
  Same.through h (by
    unfold endSettle
    (repeat' split) <;> simp)

@[simp] theorem startPulses_same {ps : List Part} {s t : State} (cs : List CoilCommand) (h : [Part.ms, .lc] ⊆ ps) :
    Same ps s (startPulses cs t) ↔ Same ps s t :=
  Same.through h (by
    unfold startPulses
    simp only [examineDispatch_same (show [Part.ms, .lc] ⊆ [Part.ms, .lc] from List.Subset.refl _)]
    exact foldl_same _ (fun a x => by simp) cs t)

@[simp] theorem handMove_same {ps : List Part} {s t : State} (n : Nat) (b : Bool) (h : [Part.cs, .ru, .ms, .lc] ⊆ ps) :
    Same ps s (handMove n b t) ↔ Same ps s t :=
  Same.through h (by
    unfold handMove
    refine Same.trans (t := setContactBit n b t) (by simp) ?_
    generalize setContactBit n b t = u
    dsimp only
    (repeat' split) <;> simp)

@[simp] theorem loseBoard_same {ps : List Part} {s t : State} (i : Fin 16) (h : [Part.ms, .lc] ⊆ ps) :
    Same ps s (loseBoard i t) ↔ Same ps s t :=
  Same.through h (by simp [loseBoard])

@[simp] theorem adoptBoard_same {ps : List Part} {s t : State} (i : Fin 16) (h : [Part.ru, .ms] ⊆ ps) :
    Same ps s (adoptBoard i t) ↔ Same ps s t :=
  Same.through h (by simp [adoptBoard])

@[simp] theorem resynchronise_same {ps : List Part} {s t : State} (i : Fin 16) (h : [Part.ru, .ms, .lc] ⊆ ps) :
    Same ps s (resynchronise i t) ↔ Same ps s t :=
  Same.through h (by simp [resynchronise])

@[simp] theorem regainBoard_same {ps : List Part} {s t : State} (i : Fin 16) (h : [Part.ru, .ms, .lc] ⊆ ps) :
    Same ps s (regainBoard i t) ↔ Same ps s t :=
  Same.through h (by unfold regainBoard; split <;> simp)

@[simp] theorem shoeSample_same {ps : List Part} {s t : State} (v : Bool) (raw : Nat) (h : [Part.cu, .ru] ⊆ ps) :
    Same ps s (shoeSample v raw t) ↔ Same ps s t :=
  Same.through h (by unfold shoeSample; split <;> simp)

@[simp] theorem readProgramField_same {ps : List Part} {s t : State} (l : ProgramLoad) (h : [Part.cu, .port] ⊆ ps) :
    Same ps s (readProgramField l t) ↔ Same ps s t :=
  Same.through h (by simp [readProgramField])

@[simp] theorem startProgram_same {ps : List Part} {s t : State} (c p : Nat) (h : [Part.cu, .rs, .port] ⊆ ps) :
    Same ps s (startProgram c p t) ↔ Same ps s t :=
  Same.through h (by
    unfold startProgram
    (repeat' split) <;> simp)

@[simp] theorem finishProgram_same {ps : List Part} {s t : State} (l : ProgramLoad) (st : List (List Nat)) (h : [Part.cu, .ru, .jw, .rs, .port] ⊆ ps) :
    Same ps s (finishProgram l st t) ↔ Same ps s t :=
  Same.through h (by simp [finishProgram])

@[simp] theorem takeProgramField_same {ps : List Part} {s t : State} (l : ProgramLoad) (h : [Part.cu, .ru, .jw, .rs, .port] ⊆ ps) :
    Same ps s (takeProgramField l t) ↔ Same ps s t :=
  Same.through h (by unfold takeProgramField; split <;> simp)

@[simp] theorem calibrated_same {ps : List Part} {s t : State} (c : Nat) (b : Bool) (v : Nat) (h : [Part.cu, .ru, .jw, .rs, .port] ⊆ ps) :
    Same ps s (calibrated c b v t) ↔ Same ps s t :=
  Same.through h (by simp [calibrated])

@[simp] theorem calibrate_same {ps : List Part} {s t : State} (c e : Nat) (h : [Part.cu, .ru, .jw, .rs, .port] ⊆ ps) :
    Same ps s (calibrate c e t) ↔ Same ps s t :=
  Same.through h (by
    unfold calibrate
    dsimp only
    (repeat' split) <;> simp)

@[simp] theorem overrun_same {ps : List Part} {s t : State} (a : Action) (h : [Part.jw, .rs, .port] ⊆ ps) :
    Same ps s (overrun a t) ↔ Same ps s t :=
  Same.through h (by simp [overrun])

@[simp] theorem dropHead_same {ps : List Part} {s t : State} (h : [Part.ce, .port] ⊆ ps) :
    Same ps s (dropHead t) ↔ Same ps s t :=
  Same.through h (by simp [dropHead])

@[simp] theorem pushUndo_same {ps : List Part} {s t : State} (h : [Part.ce, .port] ⊆ ps) :
    Same ps s (pushUndo t) ↔ Same ps s t :=
  Same.through h (by simp [pushUndo])

@[simp] theorem changeLevel_same {ps : List Part} {s t : State} (v : Nat) (o : Origin) (h : [Part.ce, .jw, .port] ⊆ ps) :
    Same ps s (changeLevel v o t) ↔ Same ps s t :=
  Same.through h (by simp [changeLevel])

@[simp] theorem cancelAction_same {ps : List Part} {s t : State} (a : Action) (h : [Part.ce, .ru, .ms, .lc, .jw, .rs, .port] ⊆ ps) :
    Same ps s (cancelAction a t) ↔ Same ps s t :=
  Same.through h (by simp [cancelAction])

@[simp] theorem setStop_same {ps : List Part} {s t : State} (a : Action) (n : Nat) (b : Bool) (h : [Part.ru, .ms, .lc, .jw, .rs, .port] ⊆ ps) :
    Same ps s (setStop a n b t) ↔ Same ps s t :=
  Same.through h (by
    unfold setStop
    (repeat' split) <;> simp)

@[simp] theorem undoAction_same {ps : List Part} {s t : State} (a : Action) (h : [Part.ce, .ru, .ms, .lc, .jw, .rs, .port] ⊆ ps) :
    Same ps s (undoAction a t) ↔ Same ps s t :=
  Same.through h (by unfold undoAction; split <;> simp)

@[simp] theorem tuttiAction_same {ps : List Part} {s t : State} (a : Action) (x : TuttiState) (h : [Part.ce, .ru, .jw, .rs, .port] ⊆ ps) :
    Same ps s (tuttiAction a x t) ↔ Same ps s t :=
  Same.through h (by unfold tuttiAction; split <;> simp)

@[simp] theorem tuttiCaptureAction_same {ps : List Part} {s t : State} (a : Action) (h : [Part.ce, .jw, .rs, .port] ⊆ ps) :
    Same ps s (tuttiCaptureAction a t) ↔ Same ps s t :=
  Same.through h (by
    unfold tuttiCaptureAction
    (repeat' split) <;> simp)

@[simp] theorem recallAction_same {ps : List Part} {s t : State} (a : Action) (l p : Nat) (h : [Part.ce, .port] ⊆ ps) :
    Same ps s (recallAction a l p t) ↔ Same ps s t :=
  Same.through h (by simp [recallAction])

@[simp] theorem captureAction_same {ps : List Part} {s t : State} (a : Action) (l p : Nat) (h : [Part.ce, .jw, .rs, .port] ⊆ ps) :
    Same ps s (captureAction a l p t) ↔ Same ps s t :=
  Same.through h (by unfold captureAction; split <;> simp)

@[simp] theorem performAction_same {ps : List Part} {s t : State} (a : Action) (h : [Part.ce, .ru, .ms, .lc, .jw, .rs, .port] ⊆ ps) :
    Same ps s (performAction a t) ↔ Same ps s t :=
  Same.through h (by unfold performAction; split <;> simp)

/-- A mirror group whose values have not changed keeps its mark. -/
theorem markStale_cu {before s : State} (h : before.cu = s.cu) : (markStale before s).cu = s.cu := by
  have hv : before.crescendoValues = s.crescendoValues := by unfold State.crescendoValues; rw [h]
  simp [markStale, Mirror.mark, hv]

theorem takeUpTo_keeps (n : Nat) (t : State) : Same [.ce, .ru, .ms, .lc, .jw, .rs, .port] t (takeUpTo n t) := by
  induction n generalizing t with
  | zero => exact Same.refl _ _
  | succ n ih =>
    unfold takeUpTo
    split
    · rename_i a _
      have hp : Same [.ce, .ru, .ms, .lc, .jw, .rs, .port] t (performAction a (dropHead t)) := by simp
      have hk : Same [.ru, .cu, .ms, .lc] (performAction a (dropHead t)) (markStale t (performAction a (dropHead t))) := by
        simp
      refine Same.trans (fun p hn => ?_) (ih _)
      by_cases hc : p = .cu
      · subst hc
        exact (hp .cu hn).trans (markStale_cu (hp .cu hn)).symm
      · exact (hp p hn).trans (hk p (by simp_all))
    · exact Same.refl _ _

@[simp] theorem takeActions_same {ps : List Part} {s t : State} (h : [Part.ce, .ru, .ms, .lc, .jw, .rs, .port] ⊆ ps) :
    Same ps s (takeActions t) ↔ Same ps s t :=
  Same.through h (takeUpTo_keeps _ t)

@[simp] theorem endAction_same {ps : List Part} {s t : State} (c : Option Nat) (r : RequestResult) (v : Nat) (h : [Part.ce, .ru, .ms, .lc, .jw, .rs, .port] ⊆ ps) :
    Same ps s (endAction c r v t) ↔ Same ps s t :=
  Same.through h (by simp [endAction])

@[simp] theorem startFollow_same {ps : List Part} {s t : State} (a : Action) (l i f m : Nat) (h : [Part.ce, .ru, .ms, .lc, .jw, .rs, .port] ⊆ ps) :
    Same ps s (startFollow a l i f m t) ↔ Same ps s t :=
  Same.through h (by
    unfold startFollow
    dsimp only
    split <;> simp)

@[simp] theorem endRecall_same {ps : List Part} {s t : State} (a : Action) (l p : Nat) (h : [Part.ce, .ru, .ms, .lc, .jw, .rs, .port] ⊆ ps) :
    Same ps s (endRecall a l p t) ↔ Same ps s t :=
  Same.through h (by
    unfold endRecall
    (repeat' split) <;> simp)

@[simp] theorem endFollow_same {ps : List Part} {s t : State} (a : Action) (l f i m : Nat) (h : [Part.ce, .ru, .ms, .lc, .jw, .rs, .port] ⊆ ps) :
    Same ps s (endFollow a l f i m t) ↔ Same ps s t :=
  Same.through h (by unfold endFollow; split <;> simp)

@[simp] theorem endLockRead_same {ps : List Part} {s t : State} (a : Action) (l p : Nat) (x : Byte) (h : [Part.ce, .ru, .ms, .lc, .jw, .rs, .port] ⊆ ps) :
    Same ps s (endLockRead a l p x t) ↔ Same ps s t :=
  Same.through h (by unfold endLockRead; split <;> simp)

@[simp] theorem endTuttiRead_same {ps : List Part} {s t : State} (a : Action) (h : [Part.ce, .ru, .ms, .lc, .jw, .rs, .port] ⊆ ps) :
    Same ps s (endTuttiRead a t) ↔ Same ps s t :=
  Same.through h (by unfold endTuttiRead; split <;> simp)

@[simp] theorem endTuttiWrite_same {ps : List Part} {s t : State} (a : Action) (i : StopImage) (k : BitVec 16) (h : [Part.ce, .ru, .ms, .lc, .jw, .rs, .port] ⊆ ps) :
    Same ps s (endTuttiWrite a i k t) ↔ Same ps s t :=
  Same.through h (by simp [endTuttiWrite])

@[simp] theorem endRunningTuttiRead_same {ps : List Part} {s t : State} (h : [Part.ce, .ru, .ms, .lc, .jw, .rs, .port] ⊆ ps) :
    Same ps s (endRunningTuttiRead t) ↔ Same ps s t :=
  Same.through h (by simp [endRunningTuttiRead])

@[simp] theorem joinActions_same {ps : List Part} {s t : State} (a : Action) (h : [Part.ce, .jw, .rs, .port] ⊆ ps) :
    Same ps s (joinActions a t) ↔ Same ps s t :=
  Same.through h (by unfold joinActions; split <;> simp)

@[simp] theorem offerAction_same {ps : List Part} {s t : State} (a : Action) (h : [Part.ce, .ru, .ms, .lc, .jw, .rs, .port] ⊆ ps) :
    Same ps s (offerAction a t) ↔ Same ps s t :=
  Same.through h (by simp [offerAction])

@[simp] theorem fetchLength_same {ps : List Part} {s t : State} (r : StepRequest) (h : [Part.sq, .port] ⊆ ps) :
    Same ps s (fetchLength r t) ↔ Same ps s t :=
  Same.through h (by simp [fetchLength])

@[simp] theorem clearPosition_same {ps : List Part} {s t : State} (c : Option Nat) (h : [Part.sq, .rs, .port] ⊆ ps) :
    Same ps s (clearPosition c t) ↔ Same ps s t :=
  Same.through h (by simp [clearPosition])

@[simp] theorem performStep_same {ps : List Part} {s t : State} (r : StepRequest) (h : [Part.sq, .rs, .port] ⊆ ps) :
    Same ps s (performStep r t) ↔ Same ps s t :=
  Same.through h (by unfold performStep; split <;> simp)

theorem takeStepsUpTo_keeps (n : Nat) (t : State) : Same [.sq, .rs, .port] t (takeStepsUpTo n t) := by
  induction n generalizing t with
  | zero => exact Same.refl _ _
  | succ n ih =>
    unfold takeStepsUpTo
    split
    · exact Same.trans (by simp) (ih _)
    · exact Same.refl _ _

@[simp] theorem takeSteps_same {ps : List Part} {s t : State} (h : [Part.sq, .rs, .port] ⊆ ps) :
    Same ps s (takeSteps t) ↔ Same ps s t :=
  Same.through h (takeStepsUpTo_keeps _ t)

@[simp] theorem leaveFetching_same {ps : List Part} {s t : State} (h : [Part.sq, .rs, .port] ⊆ ps) :
    Same ps s (leaveFetching t) ↔ Same ps s t :=
  Same.through h (by simp [leaveFetching])

@[simp] theorem endStep_same {ps : List Part} {s t : State} (c : Option Nat) (r : RequestResult) (v : Nat) (h : [Part.sq, .rs, .port] ⊆ ps) :
    Same ps s (endStep c r v t) ↔ Same ps s t :=
  Same.through h (by simp [endStep])

@[simp] theorem joinSteps_same {ps : List Part} {s t : State} (r : StepRequest) (h : [Part.sq, .jw, .rs, .port] ⊆ ps) :
    Same ps s (joinSteps r t) ↔ Same ps s t :=
  Same.through h (by
    unfold joinSteps
    (repeat' split) <;> simp)

@[simp] theorem offerStep_same {ps : List Part} {s t : State} (r : StepRequest) (h : [Part.sq, .jw, .rs, .port] ⊆ ps) :
    Same ps s (offerStep r t) ↔ Same ps s t :=
  Same.through h (by simp [offerStep])

@[simp] theorem fetchTarget_same {ps : List Part} {s t : State} (r : StepRequest) (g : Option Nat) (h : [Part.sq, .jw, .rs, .port] ⊆ ps) :
    Same ps s (fetchTarget r g t) ↔ Same ps s t :=
  Same.through h (by unfold fetchTarget; split <;> simp)

@[simp] theorem settlePosition_same {ps : List Part} {s t : State} (r : StepRequest) (p e : Nat) (h : [Part.sq, .rs, .port] ⊆ ps) :
    Same ps s (settlePosition r p e t) ↔ Same ps s t :=
  Same.through h (by unfold settlePosition; split <;> simp)

@[simp] theorem takeLength_same {ps : List Part} {s t : State} (r : StepRequest) (h : [Part.sq, .jw, .rs, .port] ⊆ ps) :
    Same ps s (takeLength r t) ↔ Same ps s t :=
  Same.through h (by unfold takeLength; split <;> simp)

@[simp] theorem badStep_same {ps : List Part} {s t : State} (r : StepRequest) (g l p n : Nat) (h : [Part.sq, .jw, .rs, .port] ⊆ ps) :
    Same ps s (badStep r g l p n t) ↔ Same ps s t :=
  Same.through h (by simp [badStep])

@[simp] theorem goodStep_same {ps : List Part} {s t : State} (r : StepRequest) (g l p n : Nat) (h : [Part.sq, .ce, .ru, .ms, .lc, .jw, .rs, .port] ⊆ ps) :
    Same ps s (goodStep r g l p n t) ↔ Same ps s t :=
  Same.through h (by unfold goodStep; split <;> simp)

@[simp] theorem takeStep_same {ps : List Part} {s t : State} (r : StepRequest) (g : Nat) (h : [Part.sq, .ce, .ru, .ms, .lc, .jw, .rs, .port] ⊆ ps) :
    Same ps s (takeStep r g t) ↔ Same ps s t :=
  Same.through h (by
    unfold takeStep
    dsimp only
    (repeat' split) <;> simp)

@[simp] theorem pressPiston_same {ps : List Part} {s t : State} (b : Bool) (p : PistonRec) (h : [Part.ce, .ru, .ms, .lc, .sq, .jw, .rs, .port] ⊆ ps) :
    Same ps s (pressPiston b p t) ↔ Same ps s t :=
  Same.through h (by
    unfold pressPiston
    dsimp only
    split <;> simp)

@[simp] theorem pressContact_same {ps : List Part} {s t : State} (b : Bool) (r : ContactRole) (h : [Part.ce, .ru, .ms, .lc, .sq, .jw, .rs, .port] ⊆ ps) :
    Same ps s (pressContact b r t) ↔ Same ps s t :=
  Same.through h (by unfold pressContact; split <;> simp)

theorem handMoves_keeps (d : Desc) (i : Fin 16) (n : Nat) (os : List Debounced) (t : State) :
    Same [.cs, .ru, .ms, .lc] t (handMoves d i n os t) := by
  induction os generalizing n t with
  | nil => exact Same.refl _ _
  | cons o os ih =>
    refine Same.trans ?_ (ih (n + 1) _)
    (repeat' split) <;> simp

@[simp] theorem handMoves_same {ps : List Part} {s t : State} (d : Desc) (i : Fin 16) (n : Nat) (os : List Debounced) (h : [Part.cs, .ru, .ms, .lc] ⊆ ps) :
    Same ps s (handMoves d i n os t) ↔ Same ps s t :=
  Same.through h (handMoves_keeps d i n os t)

theorem presses_keeps (d : Desc) (i : Fin 16) (b : Bool) (n : Nat) (os : List Debounced) (t : State) :
    Same [.ce, .ru, .ms, .lc, .sq, .jw, .rs, .port] t (presses d i b n os t) := by
  induction os generalizing n t with
  | nil => exact Same.refl _ _
  | cons o os ih =>
    refine Same.trans ?_ (ih (n + 1) _)
    (repeat' split) <;> simp

@[simp] theorem presses_same {ps : List Part} {s t : State} (d : Desc) (i : Fin 16) (b : Bool) (n : Nat) (os : List Debounced) (h : [Part.ce, .ru, .ms, .lc, .sq, .jw, .rs, .port] ⊆ ps) :
    Same ps s (presses d i b n os t) ↔ Same ps s t :=
  Same.through h (presses_keeps d i b n os t)

@[simp] theorem contactSample_same {ps : List Part} {s t : State} (i : Fin 16) (l : BitVec 64) (h : [Part.cs, .ru, .ms, .lc, .ce, .sq, .jw, .rs, .port] ⊆ ps) :
    Same ps s (contactSample i l t) ↔ Same ps s t :=
  Same.through h (by simp [contactSample])

@[simp] theorem adoptContacts_same {ps : List Part} {s t : State} (i : Fin 16) (l : BitVec 64) (h : [Part.cs] ⊆ ps) :
    Same ps s (adoptContacts i l t) ↔ Same ps s t :=
  Same.through h (by simp [adoptContacts])

@[simp] theorem sweepTo_same {ps : List Part} {s t : State} (c : Nat) (h : [Part.rs, .port] ⊆ ps) :
    Same ps s (sweepTo c t) ↔ Same ps s t :=
  Same.through h (by simp [sweepTo])

@[simp] theorem sweepOn_same {ps : List Part} {s t : State} (c : Nat) (h : [Part.rs, .port] ⊆ ps) :
    Same ps s (sweepOn c t) ↔ Same ps s t :=
  Same.through h (by
    unfold sweepOn
    (repeat' split) <;> simp)

@[simp] theorem triggerSweep_same {ps : List Part} {s t : State} (h : [Part.rs, .port] ⊆ ps) :
    Same ps s (triggerSweep t) ↔ Same ps s t :=
  Same.through h (by
    unfold triggerSweep
    (repeat' split) <;> simp)

@[simp] theorem startCompletion_same {ps : List Part} {s t : State} (h : [Part.port] ⊆ ps) :
    Same ps s (startCompletion t) ↔ Same ps s t :=
  Same.through h (by unfold startCompletion; split <;> simp)

@[simp] theorem finishCompletion_same {ps : List Part} {s t : State} (h : [Part.rs, .cause, .port, .dl, .part] ⊆ ps) :
    Same ps s (finishCompletion t) ↔ Same ps s t :=
  Same.through h (by
    unfold finishCompletion
    dsimp only
    (repeat' split) <;> simp)

@[simp] theorem endSweep_same {ps : List Part} {s t : State} (h : [Part.rs, .port] ⊆ ps) :
    Same ps s (endSweep t) ↔ Same ps s t :=
  Same.through h (by simp [endSweep])

@[simp] theorem refuseCell_same {ps : List Part} {s t : State} (c : Nat) (r : RequestResult) (h : [Part.rs, .port] ⊆ ps) :
    Same ps s (refuseCell c r t) ↔ Same ps s t :=
  Same.through h (by simp [refuseCell])

@[simp] theorem takeStateByte_same {ps : List Part} {s t : State} (c : Nat) (h : [Part.rs, .port] ⊆ ps) :
    Same ps s (takeStateByte c t) ↔ Same ps s t :=
  Same.through h (by unfold takeStateByte; split <;> simp)

@[simp] theorem acceptCell_same {ps : List Part} {s t : State} (c : Nat) (r : Request) (h : [Part.rs, .port] ⊆ ps) :
    Same ps s (acceptCell c r t) ↔ Same ps s t :=
  Same.through h (by simp [acceptCell])

@[simp] theorem judgeCell_same {ps : List Part} {s t : State} (c : Nat) (h : [Part.rs, .port] ⊆ ps) :
    Same ps s (judgeCell c t) ↔ Same ps s t :=
  Same.through h (by
    unfold judgeCell
    dsimp only
    (repeat' split) <;> simp)

@[simp] theorem beginExchange_same {ps : List Part} {s t : State} (i : Fin 16) (h : [Part.lc] ⊆ ps) :
    Same ps s (beginExchange i t) ↔ Same ps s t :=
  Same.through h (by unfold beginExchange; split <;> simp)

@[simp] theorem completeClears_same {ps : List Part} {s t : State} (h : [Part.lc, .rs, .port] ⊆ ps) :
    Same ps s (completeClears t) ↔ Same ps s t :=
  Same.through h (by
    unfold completeClears
    exact Same.trans (by simp) (foldl_same _ (fun a x => by simp) _ _))

@[simp] theorem closePollingRound_same {ps : List Part} {s t : State} (h : [Part.lc, .rs, .port] ⊆ ps) :
    Same ps s (closePollingRound t) ↔ Same ps s t :=
  Same.through h (by simp [closePollingRound])

@[simp] theorem openPollingRound_same {ps : List Part} {s t : State} (h : [Part.lc, .rs, .port] ⊆ ps) :
    Same ps s (openPollingRound t) ↔ Same ps s t :=
  Same.through h (by
    unfold openPollingRound openRoundWith
    dsimp only
    split <;> simp)

@[simp] theorem completeReload_same {ps : List Part} {s t : State} (r : RequestResult) (h : [Part.rs, .port] ⊆ ps) :
    Same ps s (completeReload r t) ↔ Same ps s t :=
  Same.through h (by unfold completeReload; split <;> simp)

@[simp] theorem readRunningTutti_same {ps : List Part} {s t : State} (h : [Part.ce, .port] ⊆ ps) :
    Same ps s (readRunningTutti t) ↔ Same ps s t :=
  Same.through h (by simp [readRunningTutti])

@[simp] theorem enterRunning_same {ps : List Part} {s t : State} (h : [Part.clock, .clockZeroed, .jw, .part, .cause, .lc, .rs, .ce, .sq, .port] ⊆ ps) :
    Same ps s (enterRunning t) ↔ Same ps s t :=
  Same.through h (by simp [enterRunning])

@[simp] theorem closeCensusRound_same {ps : List Part} {s t : State} (h : [Part.clock, .clockZeroed, .jw, .part, .cause, .lc, .rs, .ce, .sq, .port] ⊆ ps) :
    Same ps s (closeCensusRound t) ↔ Same ps s t :=
  Same.through h (by
    unfold closeCensusRound
    dsimp only
    split <;> simp)

@[simp] theorem openCensusRound_same {ps : List Part} {s t : State} (h : [Part.clock, .clockZeroed, .jw, .part, .cause, .lc, .rs, .ce, .sq, .port] ⊆ ps) :
    Same ps s (openCensusRound t) ↔ Same ps s t :=
  Same.through h (by
    unfold openCensusRound openRoundWith
    dsimp only
    split <;> simp)

@[simp] theorem openRound_same {ps : List Part} {s t : State} (h : [Part.clock, .clockZeroed, .jw, .part, .cause, .lc, .rs, .ce, .sq, .port] ⊆ ps) :
    Same ps s (openRound t) ↔ Same ps s t :=
  Same.through h (by
    unfold openRound
    (repeat' split) <;> simp)

@[simp] theorem closeRound_same {ps : List Part} {s t : State} (h : [Part.clock, .clockZeroed, .jw, .part, .cause, .lc, .rs, .ce, .sq, .port] ⊆ ps) :
    Same ps s (closeRound t) ↔ Same ps s t :=
  Same.through h (by
    unfold closeRound
    dsimp only
    (repeat' split) <;> simp)

@[simp] theorem passOn_same {ps : List Part} {s t : State} (i : Fin 16) (h : [Part.clock, .clockZeroed, .jw, .part, .cause, .lc, .rs, .ce, .sq, .port] ⊆ ps) :
    Same ps s (passOn i t) ↔ Same ps s t :=
  Same.through h (by unfold passOn; split <;> simp)

@[simp] theorem changeBoard_same {ps : List Part} {s t : State} (i : Fin 16) (b : BoardState) (h : [Part.lc, .jw, .port] ⊆ ps) :
    Same ps s (changeBoard i b t) ↔ Same ps s t :=
  Same.through h (by simp [changeBoard])

@[simp] theorem dropBoard_same {ps : List Part} {s t : State} (i : Fin 16) (b : BoardState) (h : [Part.lc, .jw, .port, .ms, .cu] ⊆ ps) :
    Same ps s (dropBoard i b t) ↔ Same ps s t :=
  Same.through h (by
    unfold dropBoard
    (repeat' split) <;> simp)

@[simp] theorem admitBoard_same {ps : List Part} {s t : State} (i : Fin 16) (r : CensusReply) (h : [Part.lc, .jw, .port, .cs, .ru, .ms] ⊆ ps) :
    Same ps s (admitBoard i r t) ↔ Same ps s t :=
  Same.through h (by unfold admitBoard; split <;> simp)

@[simp] theorem censusReplied_same {ps : List Part} {s t : State} (i : Fin 16) (r : CensusReply) (h : [Part.lc, .jw, .port, .cs, .ru, .ms, .cu] ⊆ ps) :
    Same ps s (censusReplied i r t) ↔ Same ps s t :=
  Same.through h (by
    unfold censusReplied
    dsimp only
    (repeat' split) <;> simp)

@[simp] theorem censusFailed_same {ps : List Part} {s t : State} (i : Fin 16) (h : [Part.lc, .jw, .port, .ms, .cu] ⊆ ps) :
    Same ps s (censusFailed i t) ↔ Same ps s t :=
  Same.through h (by unfold censusFailed; split <;> simp)

@[simp] theorem pollFailed_same {ps : List Part} {s t : State} (i : Fin 16) (h : [Part.lc, .jw, .port, .ms, .cu] ⊆ ps) :
    Same ps s (pollFailed i t) ↔ Same ps s t :=
  Same.through h (by
    unfold pollFailed
    (repeat' split) <;> simp)

@[simp] theorem exchangeFailed_same {ps : List Part} {s t : State} (i : Fin 16) (f : LinkFrame) (h : [Part.lc, .jw, .port, .ms, .cu] ⊆ ps) :
    Same ps s (exchangeFailed i f t) ↔ Same ps s t :=
  Same.through h (by unfold exchangeFailed; split <;> simp)

@[simp] theorem increaseCounter_same {ps : List Part} {s t : State} (i : Fin 16) (f : BoardLink → BoardLink)
    (h : [Part.lc] ⊆ ps) : Same ps s (increaseCounter i f t) ↔ Same ps s t :=
  Same.through h (by simp [increaseCounter])

@[simp] theorem exchangeBad_same {ps : List Part} {s t : State} (i : Fin 16) (f : LinkFrame) (h : [Part.lc, .jw, .port, .ms, .cu] ⊆ ps) :
    Same ps s (exchangeBad i f t) ↔ Same ps s t :=
  Same.through h (by simp [exchangeBad])

@[simp] theorem exchangeMissed_same {ps : List Part} {s t : State} (i : Fin 16) (f : LinkFrame) (h : [Part.lc, .jw, .port, .ms, .cu] ⊆ ps) :
    Same ps s (exchangeMissed i f t) ↔ Same ps s t :=
  Same.through h (by simp [exchangeMissed])

@[simp] theorem pollAcknowledged_same {ps : List Part} {s t : State} (i : Fin 16) (r : PollReply) (h : [Part.lc, .ms, .jw, .port, .cs, .ru, .ce, .sq, .rs, .cu] ⊆ ps) :
    Same ps s (pollAcknowledged i r t) ↔ Same ps s t :=
  Same.through h (by
    unfold pollAcknowledged
    (repeat' split) <;> simp)

@[simp] theorem takeReply_same {ps : List Part} {s t : State} (i : Fin 16) (f : LinkFrame) (j : Judgement) (h : [Part.lc, .ms, .jw, .port, .cs, .ru, .ce, .sq, .rs, .cu] ⊆ ps) :
    Same ps s (takeReply i f j t) ↔ Same ps s t :=
  Same.through h (by unfold takeReply; split <;> simp)

@[simp] theorem deliver_same {ps : List Part} {s t : State} (b : Bool) (i : Fin 16) (f : LinkFrame) (h : [Part.line] ⊆ ps) :
    Same ps s (deliver b i f t) ↔ Same ps s t :=
  Same.through h (by unfold deliver; split <;> simp)

@[simp] theorem endExchange_same {ps : List Part} {s t : State} (h : [Part.lc] ⊆ ps) :
    Same ps s (endExchange t) ↔ Same ps s t :=
  Same.through h (by unfold endExchange; split <;> simp)

@[simp] theorem settleCombination_same {ps : List Part} {s t : State} (h' : Header) (h : [Part.ce, .port] ⊆ ps) :
    Same ps s (settleCombination h' t) ↔ Same ps s t :=
  Same.through h (by
    unfold settleCombination
    (repeat' split) <;> simp)

@[simp] theorem settleCrescendo_same {ps : List Part} {s t : State} (l : Load) (h : [Part.cu, .ru] ⊆ ps) :
    Same ps s (settleCrescendo l t) ↔ Same ps s t :=
  Same.through h (by simp [settleCrescendo])

@[simp] theorem handOver_same {ps : List Part} {s t : State} (l : Load) (h : [Part.dl, .cu, .ru, .clock, .clockZeroed, .jw, .part, .cause, .lc, .rs, .ce, .sq, .port] ⊆ ps) :
    Same ps s (handOver l t) ↔ Same ps s t :=
  Same.through h (by simp [handOver])

@[simp] theorem readLoadField_same {ps : List Part} {s t : State} (l : Load) (h : [Part.dl, .port] ⊆ ps) :
    Same ps s (readLoadField l t) ↔ Same ps s t :=
  Same.through h (by unfold readLoadField; split <;> simp)

@[simp] theorem readRecord_same {ps : List Part} {s t : State} (l : Load) (p : LoadPlace) (h : [Part.dl, .port] ⊆ ps) :
    Same ps s (readRecord l p t) ↔ Same ps s t :=
  Same.through h (by simp [readRecord])

@[simp] theorem failLoad_same {ps : List Part} {s t : State} (p : LoadPlace) (c : Nat) (h : [Part.dl, .rs, .port] ⊆ ps) :
    Same ps s (failLoad p c t) ↔ Same ps s t :=
  Same.through h (by
    unfold failLoad
    dsimp only
    split <;> simp)

@[simp] theorem endProgram_same {ps : List Part} {s t : State} (l : Load) (p : Nat) (st : List (List Nat)) (h : [Part.dl, .cu, .ru, .clock, .clockZeroed, .jw, .part, .cause, .lc, .rs, .ce, .sq, .port] ⊆ ps) :
    Same ps s (endProgram l p st t) ↔ Same ps s t :=
  Same.through h (by
    unfold endProgram
    dsimp only
    split <;> simp)

@[simp] theorem takeLoadField_same {ps : List Part} {s t : State} (l : Load) (v : Nat) (h : [Part.dl, .cu, .ru, .clock, .clockZeroed, .jw, .part, .cause, .lc, .rs, .ce, .sq, .port] ⊆ ps) :
    Same ps s (takeLoadField l v t) ↔ Same ps s t :=
  Same.through h (by
    unfold takeLoadField
    dsimp only
    (repeat' split) <;> simp)

@[simp] theorem endReport_same {ps : List Part} {s t : State} (c : Option Nat) (h : [Part.dl, .part, .cause] ⊆ ps) :
    Same ps s (endReport c t) ↔ Same ps s t :=
  Same.through h (by
    unfold endReport
    (repeat' split) <;> simp)

@[simp] theorem loadRequests_same {ps : List Part} {s t : State} (h : [Part.rs, .port] ⊆ ps) :
    Same ps s (loadRequests t) ↔ Same ps s t :=
  Same.through h (by
    unfold loadRequests
    exact (foldl_same _ (fun a x => by simp) _ _).mono (List.Subset.refl _) |> Same.trans (by simp))

@[simp] theorem loadCombination_same {ps : List Part} {s t : State} (h : [Part.ce, .port] ⊆ ps) :
    Same ps s (loadCombination t) ↔ Same ps s t :=
  Same.through h (by simp [loadCombination])

@[simp] theorem loadSequencer_same {ps : List Part} {s t : State} (h : [Part.sq, .port] ⊆ ps) :
    Same ps s (loadSequencer t) ↔ Same ps s t :=
  Same.through h (by simp [loadSequencer])

@[simp] theorem loadCrescendo_same {ps : List Part} {s t : State} (h : [Part.cu] ⊆ ps) :
    Same ps s (loadCrescendo t) ↔ Same ps s t :=
  Same.through h (by simp [loadCrescendo])

@[simp] theorem loadRegistration_same {ps : List Part} {s t : State} (h : [Part.ru] ⊆ ps) :
    Same ps s (loadRegistration t) ↔ Same ps s t :=
  Same.through h (by simp [loadRegistration])

@[simp] theorem loadMotion_same {ps : List Part} {s t : State} (h : [Part.ms] ⊆ ps) :
    Same ps s (loadMotion t) ↔ Same ps s t :=
  Same.through h (by simp [loadMotion])

@[simp] theorem loadLink_same {ps : List Part} {s t : State} (h : [Part.lc] ⊆ ps) :
    Same ps s (loadLink t) ↔ Same ps s t :=
  Same.through h (by simp [loadLink])

@[simp] theorem loadJournal_same {ps : List Part} {s t : State} (h : [Part.jw, .port] ⊆ ps) :
    Same ps s (loadJournal t) ↔ Same ps s t :=
  Same.through h (by unfold loadJournal; split <;> simp)

@[simp] theorem loadDescription_same {ps : List Part} {s t : State} (c : LoadCause) (h : [Part.dl, .port] ⊆ ps) :
    Same ps s (loadDescription c t) ↔ Same ps s t :=
  Same.through h (by simp [loadDescription])

@[simp] theorem enterLoading_same {ps : List Part} {s t : State} (c : LoadCause) (h : [Part.part, .cause, .dl, .jw, .lc, .ms, .ru, .cu, .sq, .ce, .rs, .cs, .port] ⊆ ps) :
    Same ps s (enterLoading c t) ↔ Same ps s t :=
  Same.through h (by simp [enterLoading])

theorem drainCompletions_keeps (c n : Nat) (t : State) :
    Same [.mem, .rs, .cause, .port, .dl, .part] t (drainCompletions c n t) := by
  induction n generalizing t with
  | zero => exact Same.refl _ _
  | succ n ih =>
    unfold drainCompletions
    split
    · exact Same.trans (by simp) (ih _)
    · exact Same.refl _ _

@[simp] theorem drainCompletions_same {ps : List Part} {s t : State} (c n : Nat) (h : [Part.mem, .rs, .cause, .port, .dl, .part] ⊆ ps) :
    Same ps s (drainCompletions c n t) ↔ Same ps s t :=
  Same.through h (drainCompletions_keeps c n t)

@[simp] theorem abandonReload_same {ps : List Part} {s t : State} (h : [Part.mem, .rs, .cause, .port, .dl, .part] ⊆ ps) :
    Same ps s (abandonReload t) ↔ Same ps s t :=
  Same.through h (by unfold abandonReload; split <;> simp)

@[simp] theorem haltDescription_same {ps : List Part} {s t : State} (h : [Part.dl, .port] ⊆ ps) :
    Same ps s (haltDescription t) ↔ Same ps s t :=
  Same.through h (by simp [haltDescription])

@[simp] theorem haltEngines_same {ps : List Part} {s t : State} (h : [Part.ce, .sq, .port] ⊆ ps) :
    Same ps s (haltEngines t) ↔ Same ps s t :=
  Same.through h (by simp [haltEngines])

@[simp] theorem haltCrescendo_same {ps : List Part} {s t : State} (h : [Part.cu, .port] ⊆ ps) :
    Same ps s (haltCrescendo t) ↔ Same ps s t :=
  Same.through h (by simp [haltCrescendo])

@[simp] theorem haltImages_same {ps : List Part} {s t : State} (h : [Part.ru, .port] ⊆ ps) :
    Same ps s (haltImages t) ↔ Same ps s t :=
  Same.through h (by simp [haltImages])

@[simp] theorem haltMotion_same {ps : List Part} {s t : State} (h : [Part.ms] ⊆ ps) :
    Same ps s (haltMotion t) ↔ Same ps s t :=
  Same.through h (by unfold haltMotion; dsimp only; split <;> simp)

@[simp] theorem haltLink_same {ps : List Part} {s t : State} (h : [Part.lc] ⊆ ps) :
    Same ps s (haltLink t) ↔ Same ps s t :=
  Same.through h (by simp [haltLink])

@[simp] theorem haltWork_same {ps : List Part} {s t : State} (h : [Part.part, .mem, .rs, .cause, .port, .dl, .lc, .ms, .ru, .cu, .ce, .sq] ⊆ ps) :
    Same ps s (haltWork t) ↔ Same ps s t :=
  Same.through h (by simp [haltWork])

@[simp] theorem halt_same {ps : List Part} {s t : State} (h : [Part.part, .mem, .rs, .cause, .port, .dl, .lc, .ms, .ru, .cu, .ce, .sq] ⊆ ps) :
    Same ps s (halt t) ↔ Same ps s t :=
  Same.through h (by unfold halt; split <;> simp)

@[simp] theorem softReset_same {ps : List Part} {s t : State} (h : [Part.part, .cause, .dl, .jw, .lc, .ms, .ru, .cu, .sq, .ce, .rs, .cs, .port] ⊆ ps) :
    Same ps s (softReset t) ↔ Same ps s t :=
  Same.through h (by simp [softReset])

@[simp] theorem selectLevel_same {ps : List Part} {s t : State} (c v : Nat) (h : [Part.ce, .jw, .rs, .port] ⊆ ps) :
    Same ps s (selectLevel c v t) ↔ Same ps s t :=
  Same.through h (by unfold selectLevel; split <;> simp)

@[simp] theorem startLockWrite_same {ps : List Part} {s t : State} (v x : Nat) (h : [Part.port] ⊆ ps) :
    Same ps s (startLockWrite v x t) ↔ Same ps s t :=
  Same.through h (fun p hp => by cases p <;> first | rfl | exact absurd (by decide) hp)

@[simp] theorem lockLevel_same {ps : List Part} {s t : State} (c v x : Nat) (h : [Part.ce, .rs, .port] ⊆ ps) :
    Same ps s (lockLevel c v x t) ↔ Same ps s t :=
  Same.through h (by unfold lockLevel; split <;> simp)

@[simp] theorem setUpCapture_same {ps : List Part} {s t : State} (c e x : Nat) (h : [Part.ce, .rs, .port] ⊆ ps) :
    Same ps s (setUpCapture c e x t) ↔ Same ps s t :=
  Same.through h (by unfold setUpCapture; split <;> simp)

@[simp] theorem clearFaults_same {ps : List Part} {s t : State} (c : Nat) (h : [Part.ms, .rs, .port] ⊆ ps) :
    Same ps s (clearFaults c t) ↔ Same ps s t :=
  Same.through h (by simp [clearFaults])

@[simp] theorem clearCounters_same {ps : List Part} {s t : State} (c : Nat) (h : [Part.lc, .rs, .port] ⊆ ps) :
    Same ps s (clearCounters c t) ↔ Same ps s t :=
  Same.through h (by unfold clearCounters; split <;> simp)

@[simp] theorem acceptReload_same {ps : List Part} {s t : State} (c : Nat) (h : [Part.mem, .part, .cause, .dl, .jw, .lc, .ms, .ru, .cu, .sq, .ce, .rs, .cs, .port] ⊆ ps) :
    Same ps s (acceptReload c t) ↔ Same ps s t :=
  Same.through h (by simp [acceptReload])

@[simp] theorem writeEntry_same {ps : List Part} {s t : State} (e : JournalEntry) (h : [Part.jw, .port] ⊆ ps) :
    Same ps s (writeEntry e t) ↔ Same ps s t :=
  Same.through h (by unfold writeEntry; split <;> simp)

@[simp] theorem advanceWritten_same {ps : List Part} {s t : State} (h : [Part.jw, .port] ⊆ ps) :
    Same ps s (advanceWritten t) ↔ Same ps s t :=
  Same.through h (by simp [advanceWritten])

end Sys2Proof.Machine
end

