-- ==== Sys2Proof/Laws/Finish.lean ====
section
/-! SUPPORT. The end of every command: `finish` answers a next state that differs from what the command made of the
state in the bookkeeping of the mirror updates and the waiting accesses alone. -/

namespace Sys2Proof.Machine

theorem finish_eq (before s : State) :
    finish before s = .next (if s.inReset then s else beginUpdates (markStale before s)) := rfl

theorem finish_next (before s : State) : ∃ t, finish before s = .next t := ⟨_, rfl⟩

@[simp] theorem visible_visible (s : State) : s.visible.visible = s.visible := rfl

@[simp] theorem visible_markStale (before s : State) : (markStale before s).visible = s.visible := rfl

@[simp] theorem visible_port (s : State) (p : Port) : ({ s with port := p } : State).visible = s.visible := rfl

@[simp] theorem visible_enqueueAccesses (b : Block) (as : List Access) (s : State) :
    (enqueueAccesses b as s).visible = s.visible := rfl

@[simp] theorem visible_keepAccesses (b : Block) (keep : Access → Bool) (s : State) :
    (keepAccesses b keep s).visible = s.visible := rfl

@[simp] theorem visible_startRead (b : Block) (a n : Nat) (s : State) : (startRead b a n s).visible = s.visible := rfl

@[simp] theorem visible_startWrite (b : Block) (p : Purpose) (a : Nat) (bytes : List Byte) (s : State) :
    (startWrite b p a bytes s).visible = s.visible := rfl

@[simp] theorem visible_abandonIfFull (b : Block) (full : Bool) (s : State) :
    (abandonIfFull b full s).visible = s.visible := by
  unfold abandonIfFull
  split <;> rfl

@[simp] theorem visible_beginImageUpdate (s : State) : (beginImageUpdate s).visible = s.visible := by
  unfold beginImageUpdate
  dsimp only
  split
  · rw [visible_enqueueAccesses, visible_abandonIfFull]
    rfl
  · rfl

@[simp] theorem visible_beginCrescendoUpdate (s : State) : (beginCrescendoUpdate s).visible = s.visible := by
  unfold beginCrescendoUpdate
  dsimp only
  split
  · rw [visible_enqueueAccesses, visible_abandonIfFull]
    rfl
  · rfl

@[simp] theorem visible_beginMotionUpdate (s : State) : (beginMotionUpdate s).visible = s.visible := by
  unfold beginMotionUpdate
  dsimp only
  split
  · rw [visible_enqueueAccesses, visible_abandonIfFull]
    rfl
  · rfl

@[simp] theorem visible_beginLinkUpdate (s : State) : (beginLinkUpdate s).visible = s.visible := by
  unfold beginLinkUpdate
  dsimp only
  split
  · rw [visible_enqueueAccesses, visible_abandonIfFull]
    rfl
  · rfl

@[simp] theorem visible_beginUpdates (s : State) : (beginUpdates s).visible = s.visible := by simp [beginUpdates]

/-- The next state of a command, as far as it is visible, is what the command made of the state. -/
theorem finish_completes (before s : State) : ∃ t, finish before s = .next t ∧ t.visible = s.visible := by
  refine ⟨_, rfl, ?_⟩
  split <;> simp

theorem finish_visible {before s t : State} (h : finish before s = .next t) : t.visible = s.visible := by
  obtain ⟨u, hu, hv⟩ := finish_completes before s
  rw [hu] at h
  cases h
  exact hv

/-- What `finish` can touch at all. -/
theorem finish_same {before s t : State} (h : finish before s = .next t) : Same [.ru, .cu, .ms, .lc, .port] s t := by
  rw [finish_eq] at h
  cases h
  split <;> simp

/-- A command ends in RESET# with what it made of the state. -/
theorem finish_inReset {before s : State} (h : s.inReset = true) : finish before s = .next s := by
  rw [finish_eq, if_pos h]

end Sys2Proof.Machine
end

