-- ==== Sys2Proof/Laws/Effects.lean ====
section
/-! SUPPORT. What each shared operation does, said once: as far as a state is visible (Safety.lean), the operation is
this update of it. A composition of operations is then rewritten from the outside inwards. -/

namespace Sys2Proof.Machine

/-! ### The memory port -/

theorem serveBlock_visible (b : Block) (s : State) :
    (serveBlock b s).visible = { s.visible with mem := (serveBlock b s).mem } := by
  unfold serveBlock
  split <;> rfl

theorem serveUntil_visible (b : Block) (done : BlockPort → Bool) (n : Nat) (s : State) :
    (serveUntil b done n s).visible = { s.visible with mem := (serveUntil b done n s).mem } := by
  induction n generalizing s with
  | zero => rfl
  | succ n ih =>
    unfold serveUntil serveNext
    split
    · rfl
    · cases h : s.port.granted with
      | none => rfl
      | some g =>
        rw [Option.map_some]
        dsimp only
        rw [ih, serveBlock_visible]

theorem finishRead_visible (b : Block) (s : State) :
    (finishRead b s).visible = { s.visible with mem := (finishRead b s).mem } := serveUntil_visible ..

theorem finishWrite_visible (b : Block) (p : Purpose) (s : State) :
    (finishWrite b p s).visible = { s.visible with mem := (finishWrite b p s).mem } := serveUntil_visible ..

/-! ### Flags and the part state -/

theorem raise_visible (f : CauseFlag) (s : State) :
    (raise f s).visible = { s.visible with cause := setBit s.visible.cause f.bit true } := rfl

theorem changePart_visible (p : PartState) (s : State) :
    (changePart p s).visible = { s.visible with part := p, cause := setBit s.visible.cause 7 true } := rfl

/-! ### Journal entries (R147) -/

/-- The Journal Writer, when it has nothing in hand, takes the head of its list. -/
def Journal.taking (j : Journal) : Journal :=
  match j.phase, j.list with
  | .idle, e :: rest => { j with list := rest, phase := .countRead e }
  | _, _ => j

/-- The Journal Writer once an entry has been handed over at this time. -/
def Journal.handed (e : JournalEntry) (time : BitVec 32) (j : Journal) : Journal :=
  if j.list.length ≥ 16 then
    { j with lost := if j.lost < 65535 then j.lost + 1 else j.lost, lostWrites := j.lostWrites + 1 }
  else Journal.taking { j with list := j.list ++ [{ e with time := time }] }

theorem takeEntry_visible (s : State) : (takeEntry s).visible = { s.visible with jw := s.visible.jw.taking } := by
  show _ = { s.visible with jw := s.jw.taking }
  cases hp : s.jw.phase <;> cases hl : s.jw.list <;> simp only [takeEntry, Journal.taking, hp, hl] <;> rfl

theorem loseEntry_visible (s : State) : (loseEntry s).visible = { s.visible with jw := { s.visible.jw with
    lost := if s.visible.jw.lost < 65535 then s.visible.jw.lost + 1 else s.visible.jw.lost
    lostWrites := s.visible.jw.lostWrites + 1 } } := rfl

theorem journal_visible (e : JournalEntry) (s : State) :
    (journal e s).visible = { s.visible with jw := s.visible.jw.handed e s.visible.clock } := by
  by_cases h : s.jw.list.length ≥ Config.entryListSize
  · have hj : s.jw.handed e s.clock = { s.jw with
        lost := if s.jw.lost < 65535 then s.jw.lost + 1 else s.jw.lost, lostWrites := s.jw.lostWrites + 1 } := if_pos h
    show _ = { s.visible with jw := s.jw.handed e s.clock }
    rw [journal, if_pos h, loseEntry_visible, hj]
    rfl
  · have hj : s.jw.handed e s.clock =
        Journal.taking { s.jw with list := s.jw.list ++ [{ e with time := s.clock }] } := if_neg h
    show _ = { s.visible with jw := s.jw.handed e s.clock }
    rw [journal, if_neg h, takeEntry_visible, hj]
    rfl

/-- What `journal` makes of the Journal Writer. -/
theorem journal_jw (e : JournalEntry) (s : State) : (journal e s).jw = s.jw.handed e s.clock :=
  congrArg State.jw (journal_visible e s)

/-! ### Results (R140) -/

theorem complete_visible (c : Nat) (r : RequestResult) (v : Nat) (s : State) :
    (complete c r v s).visible = { s.visible with rs := { s.visible.rs with
      completions := s.visible.rs.completions ++ [⟨c, r, v, s.visible.clock⟩] } } := by
  unfold complete
  dsimp only
  split <;> rfl

theorem completeIf_visible (c : Option Nat) (r : RequestResult) (v : Nat) (s : State) :
    (completeIf c r v s).visible = { s.visible with rs := { s.visible.rs with
      completions := s.visible.resultsWith c r v } } := by
  cases c with
  | none => simp [completeIf, State.resultsWith]
  | some c => exact complete_visible c r v s

/-! ### Mirrors without a count -/

theorem setLevel_visible (v : Nat) (s : State) :
    (setLevel v s).visible = { s.visible with ce := { s.visible.ce with level := v } } := rfl

theorem setCapture_visible (enable : Bool) (scope : Byte) (s : State) :
    (setCapture enable scope s).visible = { s.visible with ce := { s.visible.ce with
      captureEnable := enable, captureScope := scope } } := rfl

theorem setActionQueue_visible (q : List Action) (s : State) :
    (setActionQueue q s).visible = { s.visible with ce := { s.visible.ce with queue := q } } := by
  unfold setActionQueue
  dsimp only
  split <;> rfl

theorem setUndo_visible (u : List StopImage) (s : State) :
    (setUndo u s).visible = { s.visible with ce := { s.visible.ce with undo := u } } := by
  unfold setUndo
  dsimp only
  split <;> rfl

theorem setJob_visible (j : Option EngineJob) (s : State) :
    (setJob j s).visible = { s.visible with ce := { s.visible.ce with job := j } } := by
  unfold setJob
  dsimp only
  split <;> rfl

theorem setPosition_visible (p : Option Nat) (s : State) :
    (setPosition p s).visible = { s.visible with sq := { s.visible.sq with position := p } } := by
  rfl

theorem setStepList_visible (l : List StepRequest) (s : State) :
    (setStepList l s).visible = { s.visible with sq := { s.visible.sq with list := l } } := by
  unfold setStepList
  dsimp only
  split <;> rfl

/-! ### Images (R22) -/

theorem recompute_visible (s : State) :
    (recompute s).visible = { s.visible with ru := { s.visible.ru with si := s.visible.speaking } } := rfl

theorem setRegistration_visible (image : StopImage) (s : State) :
    (setRegistration image s).visible =
      (recompute { s.visible with ru := { s.visible.ru with ri := image } }).visible := rfl

theorem setTutti_visible (on : Bool) (s : State) :
    (setTutti on s).visible = (recompute { s.visible with ru := { s.visible.ru with tutti := on } }).visible := rfl

theorem setTuttiImage_visible (image : StopImage) (s : State) :
    (setTuttiImage image s).visible =
      (recompute { s.visible with ce := { s.visible.ce with ti := image } }).visible := rfl

/-! ### Actions (R44 to R46) -/

theorem dropHead_visible (s : State) :
    (dropHead s).visible = { s.visible with ce := { s.visible.ce with queue := s.visible.ce.queue.tail } } :=
  setActionQueue_visible _ s

theorem pushUndo_visible (s : State) : (pushUndo s).visible = { s.visible with ce := { s.visible.ce with
    undo := (s.visible.ru.ri :: s.visible.ce.undo).take 4 } } := setUndo_visible _ s

/-- What an action leaves as it ends, before the engine takes the next (R46). -/
theorem idled_visible (c : Option Nat) (r : RequestResult) (v : Nat) (s : State) :
    (completeIf c r v (setJob none s)).visible = { s.visible with
      ce := { s.visible.ce with job := none }
      rs := { s.visible.rs with completions := s.visible.resultsWith c r v } } := by
  rw [completeIf_visible, setJob_visible]
  rfl

theorem overrun_visible (a : Action) (s : State) :
    (overrun a s).visible = { s.visible with
      jw := s.visible.jw.handed ⟨.actionOverrun, a.origin, a.kind.level.getD 0xFF, a.kind.piston.getD 0xFF, a.kind.code,
        a.kind.stop.getD 0, 0⟩ s.visible.clock
      rs := { s.visible.rs with completions := s.visible.resultsWith a.cell .full 0 } } := by
  rw [overrun, completeIf_visible, journal_visible]
  rfl

theorem changeLevel_visible (v : Nat) (origin : Origin) (s : State) :
    (changeLevel v origin s).visible = { s.visible with
      ce := { s.visible.ce with level := v }
      jw := s.visible.jw.handed ⟨.level, origin, v, 0xFF, s.visible.ce.level, 0, 0⟩ s.visible.clock } := by
  rw [changeLevel, journal_visible, setLevel_visible]
  rfl

theorem joinActions_visible (a : Action) (s : State) :
    (joinActions a s).visible =
      if 8 ≤ s.ce.queue.length then (overrun a s).visible
      else { s.visible with ce := { s.visible.ce with queue := s.visible.ce.queue ++ [a] } } := by
  unfold joinActions
  show State.visible (if 8 ≤ s.ce.queue.length then _ else _) = _
  split
  · rfl
  · exact setActionQueue_visible _ s

/-! ### Taking the queue (R45) -/

/-- An engine that may not take the head takes nothing. -/
theorem takeActions_none (s : State) (h : s.nextAction = none) : takeActions s = s := by
  unfold takeActions
  cases s.ce.queue.length <;> simp [takeUpTo, h]

/-- No action touches the records that wait behind it (R44). -/
theorem performAction_queue (a : Action) (s : State) : (performAction a s).ce.queue = s.ce.queue := by
  have job : ∀ (j : Option EngineJob) (t : State), (setJob j t).ce.queue = t.ce.queue := fun j t => by
    unfold setJob
    dsimp only
    split <;> rfl
  have undo : ∀ (u : List StopImage) (t : State), (setUndo u t).ce.queue = t.ce.queue := fun u t => by
    unfold setUndo
    dsimp only
    split <;> rfl
  have result : ∀ (c : Option Nat) (r : RequestResult) (v : Nat) (t : State), (completeIf c r v t).ce = t.ce :=
    fun c r v t => (((completeIf_same (ps := [.rs, .port]) c r v (List.Subset.refl _)).mpr (Same.refl _ t)).get .ce).symm
  have entry : ∀ (e : JournalEntry) (t : State), (journal e t).ce = t.ce := fun e t =>
    (((journal_same (ps := [.jw, .port]) e (List.Subset.refl _)).mpr (Same.refl _ t)).get .ce).symm
  have moves : ∀ (c : ChangeSet) (t : State), (applyChangeSet c t).ce = t.ce := fun c t =>
    (((applyChangeSet_same (ps := [.ru, .ms, .lc]) c (List.Subset.refl _)).mpr (Same.refl _ t)).get .ce).symm
  unfold performAction
  split <;> (try unfold recallAction) <;> (try unfold captureAction) <;> (try unfold cancelAction) <;>
    (try unfold tuttiAction) <;> (try unfold tuttiCaptureAction) <;> (try unfold setStop) <;> (try unfold undoAction) <;>
    (repeat' split) <;> simp [result, entry, moves, job, undo, pushUndo]

/-- An engine that may take the head does, and goes on with what its taking leaves. -/
theorem takeActions_some (s : State) (a : Action) (h : s.nextAction = some a) :
    takeActions s = takeActions (markStale s (performAction a (dropHead s))) := by
  have hq : s.ce.queue.length = (markStale s (performAction a (dropHead s))).ce.queue.length + 1 := by
    have hd : (dropHead s).ce.queue = s.ce.queue.tail := congrArg (fun v : State => v.ce.queue) (dropHead_visible s)
    have hn : s.ce.queue ≠ [] := by
      intro hn
      simp [State.nextAction, hn] at h
    rw [show (markStale s (performAction a (dropHead s))).ce.queue = (performAction a (dropHead s)).ce.queue from rfl,
      performAction_queue, hd, List.length_tail]
    have := List.length_pos_iff.mpr hn
    omega
  unfold takeActions
  rw [hq]
  conv => lhs; unfold takeUpTo
  rw [h]

/-- In RUNNING the engine, once it has taken its queue, is not IDLE while the queue holds a record (R45). -/
theorem takeActions_idle (s : State) : (takeActions s).nextAction = none := by
  have key : ∀ (n : Nat) (t : State), t.ce.queue.length ≤ n → (takeUpTo n t).nextAction = none := by
    intro n
    induction n with
    | zero =>
      intro t ht
      have : t.ce.queue = [] := List.length_eq_zero_iff.mp (by omega)
      simp [takeUpTo, State.nextAction, this]
    | succ n ih =>
      intro t ht
      unfold takeUpTo
      split
      · rename_i a h
        apply ih
        have hd : (dropHead t).ce.queue = t.ce.queue.tail := congrArg (fun v : State => v.ce.queue) (dropHead_visible t)
        rw [show (markStale t (performAction a (dropHead t))).ce.queue = (performAction a (dropHead t)).ce.queue from rfl,
          performAction_queue, hd, List.length_tail]
        omega
      · assumption
  exact key _ s (Nat.le_refl _)

theorem recallAction_visible (a : Action) (l p : Nat) (s : State) :
    (recallAction a l p s).visible =
      { s.visible with ce := { s.visible.ce with job := some (.recallRead a l p) } } := by
  rw [recallAction, visible_startRead, setJob_visible]

/-! ### Steps (R62) -/

/-- What a step request leaves as it ends, before the Sequencer takes the next (R62). -/
theorem left_visible (c : Option Nat) (r : RequestResult) (v : Nat) (s : State) :
    ({ completeIf c r v s with sq := { (completeIf c r v s).sq with job := none } } : State).visible = { s.visible with
      sq := { s.visible.sq with job := none }
      rs := { s.visible.rs with completions := s.visible.resultsWith c r v } } := by
  have h : ∀ u : State, ({ u with sq := { u.sq with job := none } } : State).visible =
      { u.visible with sq := { u.visible.sq with job := none } } := fun _ => rfl
  rw [h, completeIf_visible]

theorem fetchLength_visible (r : StepRequest) (s : State) :
    (fetchLength r s).visible = { s.visible with sq := { s.visible.sq with
      list := s.visible.sq.list.tail, job := some (.lengthRead r) } } := by
  have h : ∀ u : State, ({ u with sq := { u.sq with job := some (.lengthRead r) } } : State).visible =
      { u.visible with sq := { u.visible.sq with job := some (.lengthRead r) } } := fun _ => rfl
  rw [fetchLength, visible_startRead, h, setStepList_visible]
  rfl

theorem clearPosition_visible (c : Option Nat) (s : State) :
    (clearPosition c s).visible = { s.visible with
      sq := { s.visible.sq with list := s.visible.sq.list.tail, position := none }
      rs := { s.visible.rs with completions := s.visible.resultsWith c .ok 0xFFFF } } := by
  rw [clearPosition, completeIf_visible, setPosition_visible, setStepList_visible]
  rfl

/-- A Sequencer that may not take the head takes nothing. -/
theorem takeSteps_none (s : State) (h : s.nextStep = none) : takeSteps s = s := by
  unfold takeSteps
  cases s.sq.list.length <;> simp [takeStepsUpTo, h]

/-- No step request touches the requests that wait behind it (R62). -/
theorem performStep_list (r : StepRequest) (s : State) : (performStep r s).sq.list = s.sq.list.tail := by
  unfold performStep
  split
  · exact congrArg (fun v : State => v.sq.list) (clearPosition_visible r.cell s)
  · exact congrArg (fun v : State => v.sq.list) (fetchLength_visible r s)

/-- A Sequencer that may take the head does, and goes on with what its taking leaves. -/
theorem takeSteps_some (s : State) (r : StepRequest) (h : s.nextStep = some r) :
    takeSteps s = takeSteps (performStep r s) := by
  have hq : s.sq.list.length = (performStep r s).sq.list.length + 1 := by
    have hn : s.sq.list ≠ [] := by
      intro hn
      simp [State.nextStep, hn] at h
    rw [performStep_list, List.length_tail]
    have := List.length_pos_iff.mpr hn
    omega
  unfold takeSteps
  rw [hq]
  conv => lhs; unfold takeStepsUpTo
  rw [h]

theorem joinSteps_visible (r : StepRequest) (s : State) (h : s.sq.list.length < 4) :
    (joinSteps r s).visible = { s.visible with sq := { s.visible.sq with list := s.visible.sq.list ++ [r] } } := by
  unfold joinSteps
  rw [if_neg (by show ¬ 4 ≤ s.sq.list.length; omega)]
  exact setStepList_visible _ s

/-! ### The sweep (R137) -/

theorem sweepOn_visible (c : Nat) (s : State) :
    (sweepOn c s).visible = { s.visible with rs := s.visible.rs.movedOn c } := by
  show _ = { s.visible with rs := s.rs.movedOn c }
  unfold sweepOn Requests.movedOn
  show State.visible (if c + 1 < 32 then _ else _) = _
  split
  · rfl
  · split <;> rfl

theorem triggerSweep_visible (s : State) :
    (triggerSweep s).visible =
      if s.part = .running then
        if s.rs.sweep = .idle then { s.visible with rs := { s.visible.rs with sweep := .stateRead 0 } }
        else { s.visible with rs := { s.visible.rs with scanPending := true } }
      else s.visible := by
  unfold triggerSweep
  split
  · split <;> rfl
  · rfl

/-! ### Moves (R101, R103): what examining dispatch and enqueueing can touch -/

theorem examineDispatch_visible (s : State) :
    (examineDispatch s).visible = { s.visible with
      ms := (examineDispatch s).visible.ms, lc := (examineDispatch s).visible.lc } := by
  unfold examineDispatch
  split <;> rfl

theorem enqueueMoves_visible (moved : StopImage) (s : State) :
    (enqueueMoves moved s).visible = { s.visible with
      ms := (enqueueMoves moved s).visible.ms, lc := (enqueueMoves moved s).visible.lc } := by
  unfold enqueueMoves
  rw [examineDispatch_visible]
  rfl

/-! ### Where accesses wait once a command has ended -/

@[simp] theorem enqueueAccesses_get_ne {b c : Block} (h : c ≠ b) (as : List Access) (s : State) :
    (enqueueAccesses b as s).port.get c = s.port.get c := by
  cases b <;> cases c <;> first | rfl | exact absurd rfl h

@[simp] theorem abandonIfFull_get_ne {b c : Block} (h : c ≠ b) (full : Bool) (s : State) :
    (abandonIfFull b full s).port.get c = s.port.get c := by
  unfold abandonIfFull
  split
  · cases b <;> cases c <;> first | rfl | exact absurd rfl h
  · rfl

/-- The blocks that keep no guarded mirror group. -/
def Block.unguarded : Block → Bool
  | .ru | .cu | .ms | .lc => false
  | .dl | .ce | .sq | .rs | .jw => true

theorem beginUpdates_get {b : Block} (h : b.unguarded = true) (s : State) :
    (beginUpdates s).port.get b = s.port.get b := by
  have hi : ∀ t : State, (beginImageUpdate t).port.get b = t.port.get b := by
    intro t
    unfold beginImageUpdate
    dsimp only
    split
    · rw [enqueueAccesses_get_ne (by rintro rfl; simp [Block.unguarded] at h),
        abandonIfFull_get_ne (by rintro rfl; simp [Block.unguarded] at h)]
    · rfl
  have hc : ∀ t : State, (beginCrescendoUpdate t).port.get b = t.port.get b := by
    intro t
    unfold beginCrescendoUpdate
    dsimp only
    split
    · rw [enqueueAccesses_get_ne (by rintro rfl; simp [Block.unguarded] at h),
        abandonIfFull_get_ne (by rintro rfl; simp [Block.unguarded] at h)]
    · rfl
  have hm : ∀ t : State, (beginMotionUpdate t).port.get b = t.port.get b := by
    intro t
    unfold beginMotionUpdate
    dsimp only
    split
    · rw [enqueueAccesses_get_ne (by rintro rfl; simp [Block.unguarded] at h),
        abandonIfFull_get_ne (by rintro rfl; simp [Block.unguarded] at h)]
    · rfl
  have hl : ∀ t : State, (beginLinkUpdate t).port.get b = t.port.get b := by
    intro t
    unfold beginLinkUpdate
    dsimp only
    split
    · rw [enqueueAccesses_get_ne (by rintro rfl; simp [Block.unguarded] at h),
        abandonIfFull_get_ne (by rintro rfl; simp [Block.unguarded] at h)]
    · rfl
  rw [beginUpdates, hl, hm, hc, hi]

/-- The end of a command leaves what a block without a guarded mirror group waits with. -/
theorem finish_get {before s t : State} {b : Block} (hb : b.unguarded = true) (h : finish before s = .next t) :
    t.port.get b = s.port.get b := by
  rw [finish_eq] at h
  cases h
  split
  · rfl
  · rw [beginUpdates_get hb]
    rfl

end Sys2Proof.Machine
end

