-- ==== Sys2Proof/Laws/Memory.lean ====
section
/-! SUPPORT. Console memory: every operation keeps the canonical form, and a read after a write finds what was
written and nothing else changed. -/

namespace Sys2Proof.Machine

/-- The canonical form of a memory with a first entry. -/
theorem Memory.wf_cons {a : Nat} {b : Byte} {m : Memory} :
    Memory.wf ((a, b) :: m) = true ↔ b ≠ Config.powerOnByte ∧ (∀ c ∈ m, a < c.1) ∧ m.wf = true := by
  induction m generalizing a b with
  | nil => simp [Memory.wf]
  | cons c m ih =>
    obtain ⟨a', b'⟩ := c
    rw [Memory.wf, Bool.and_eq_true, Bool.and_eq_true, bne_iff_ne, decide_eq_true_iff]
    constructor
    · rintro ⟨⟨hb, hlt⟩, hm⟩
      refine ⟨hb, fun c hc => ?_, hm⟩
      rcases List.mem_cons.1 hc with rfl | hc
      · exact hlt
      · exact hlt.trans ((ih.1 hm).2.1 c hc)
    · rintro ⟨hb, hlt, hm⟩
      exact ⟨⟨hb, hlt _ (List.mem_cons_self ..)⟩, hm⟩

/-- Nothing is listed below an address that all listed addresses exceed. -/
theorem Memory.read_of_lt {m : Memory} {k : Nat} (h : ∀ c ∈ m, k < c.1) : m.read k = Config.powerOnByte := by
  induction m with
  | nil => rfl
  | cons c m ih =>
    obtain ⟨a, b⟩ := c
    have := h _ (List.mem_cons_self ..)
    simp only at this
    rw [Memory.read, if_neg (by omega), ih (fun c hc => h c (List.mem_cons_of_mem _ hc))]

theorem Memory.put_wf {a : Nat} {b : Byte} {m : Memory} (h : ∀ c ∈ m, a < c.1) (hm : m.wf = true) :
    (Memory.put a b m).wf = true := by
  unfold Memory.put
  split
  · exact hm
  · rename_i hb
    exact Memory.wf_cons.2 ⟨hb, h, hm⟩

theorem Memory.read_put {a k : Nat} {b : Byte} {m : Memory} (h : ∀ c ∈ m, a < c.1) :
    (Memory.put a b m).read k = if k = a then b else m.read k := by
  unfold Memory.put
  split
  · rename_i hb
    split
    · rename_i hk
      rw [hk, hb, Memory.read_of_lt h]
    · rfl
  · rfl

/-- The addresses a write lists are those listed before and the one written. -/
theorem Memory.mem_write {m : Memory} {k : Nat} {v : Byte} {c : Host.Cell} (h : c ∈ m.write k v) :
    c ∈ m ∨ c.1 = k := by
  induction m with
  | nil =>
    simp only [Memory.write, Memory.put] at h
    split at h
    · simp at h
    · exact Or.inr (by simp at h; rw [h])
  | cons d m ih =>
    obtain ⟨a, b⟩ := d
    rw [Memory.write] at h
    split at h
    · unfold Memory.put at h
      split at h
      · exact Or.inl h
      · rcases List.mem_cons.1 h with rfl | h
        · exact Or.inr rfl
        · exact Or.inl h
    · split at h
      · unfold Memory.put at h
        split at h
        · exact Or.inl (List.mem_cons_of_mem _ h)
        · rcases List.mem_cons.1 h with rfl | h
          · exact Or.inr rfl
          · exact Or.inl (List.mem_cons_of_mem _ h)
      · rcases List.mem_cons.1 h with rfl | h
        · exact Or.inl (List.mem_cons_self ..)
        · exact (ih h).imp (List.mem_cons_of_mem _) id

/-- A write keeps the canonical form. -/
theorem Memory.write_wf {m : Memory} (k : Nat) (v : Byte) (h : m.wf = true) : (m.write k v).wf = true := by
  induction m with
  | nil => exact Memory.put_wf (by simp) h
  | cons c m ih =>
    obtain ⟨a, b⟩ := c
    obtain ⟨hb, hlt, hm⟩ := Memory.wf_cons.1 h
    rw [Memory.write]
    split
    · rename_i hk
      refine Memory.put_wf (fun c hc => ?_) h
      rcases List.mem_cons.1 hc with rfl | hc
      · exact hk
      · exact hk.trans (hlt c hc)
    · split
      · rename_i _ hk
        exact Memory.put_wf (fun c hc => hk ▸ hlt c hc) hm
      · rename_i hk hne
        refine Memory.wf_cons.2 ⟨hb, fun c hc => ?_, ih hm⟩
        rcases Memory.mem_write hc with hc | hc
        · exact hlt c hc
        · omega

/-- A read after a write. -/
theorem Memory.read_write {m : Memory} (h : m.wf = true) (k j : Nat) (v : Byte) :
    (m.write k v).read j = if j = k then v else m.read j := by
  induction m with
  | nil => exact Memory.read_put (by simp)
  | cons c m ih =>
    obtain ⟨a, b⟩ := c
    obtain ⟨hb, hlt, hm⟩ := Memory.wf_cons.1 h
    rw [Memory.write]
    split
    · rename_i hk
      refine Memory.read_put (fun c hc => ?_)
      rcases List.mem_cons.1 hc with rfl | hc
      · exact hk
      · exact hk.trans (hlt c hc)
    · split
      · rename_i _ hk
        subst hk
        rw [Memory.read_put hlt, Memory.read]
        split <;> rfl
      · rename_i hk hne
        rw [Memory.read, ih hm, Memory.read]
        split
        · rw [if_neg (by omega)]
        · rfl

/-- A write of bytes keeps the canonical form. -/
theorem Memory.writeBytes_wf (bytes : List Byte) {m : Memory} (a : Nat) (h : m.wf = true) :
    (m.writeBytes a bytes).wf = true := by
  induction bytes generalizing a m with
  | nil => exact h
  | cons b bytes ih => exact ih (a + 1) (Memory.write_wf a b h)

/-- A read outside the bytes written. -/
theorem Memory.read_writeBytes_outside (bytes : List Byte) {m : Memory} {a k : Nat} (h : m.wf = true)
    (hk : k < a ∨ a + bytes.length ≤ k) : (m.writeBytes a bytes).read k = m.read k := by
  induction bytes generalizing a m with
  | nil => rfl
  | cons b bytes ih =>
    rw [List.length_cons] at hk
    rw [Memory.writeBytes, ih (Memory.write_wf a b h) (by omega), Memory.read_write h, if_neg (by omega)]

/-- The bytes written are the bytes read. -/
theorem Memory.readBytes_writeBytes (bytes : List Byte) {m : Memory} (a : Nat) (h : m.wf = true) :
    (m.writeBytes a bytes).readBytes a bytes.length = bytes := by
  induction bytes generalizing a m with
  | nil => rfl
  | cons b bytes ih =>
    rw [Memory.writeBytes, List.length_cons, Memory.readBytes, ih (a + 1) (Memory.write_wf a b h),
      Memory.read_writeBytes_outside bytes (Memory.write_wf a b h) (Or.inl (by omega)), Memory.read_write h,
      if_pos rfl]

@[simp] theorem Memory.readBytes_length (m : Memory) (a n : Nat) : (m.readBytes a n).length = n := by
  induction n generalizing a with
  | zero => rfl
  | succ n ih => simp [Memory.readBytes, ih]

/-- The port serves one access: the canonical form stays. -/
theorem serveBlock_wf (b : Block) (s : State) (h : s.mem.wf = true) : (serveBlock b s).mem.wf = true := by
  unfold serveBlock
  split
  · exact h
  · exact h
  · exact Memory.write_wf _ _ h

theorem serveUntil_wf (b : Block) (done : BlockPort → Bool) (n : Nat) (s : State) (h : s.mem.wf = true) :
    (serveUntil b done n s).mem.wf = true := by
  induction n generalizing s with
  | zero => exact h
  | succ n ih =>
    unfold serveUntil
    split
    · exact h
    · split
      · rename_i u hu
        unfold serveNext at hu
        cases hb : s.port.granted with
        | none => simp [hb] at hu
        | some c =>
          rw [hb] at hu
          cases hu
          exact ih _ (serveBlock_wf c s h)
      · exact h

theorem finishRead_wf (b : Block) (s : State) (h : s.mem.wf = true) : (finishRead b s).mem.wf = true :=
  serveUntil_wf _ _ _ _ h

theorem finishWrite_wf (b : Block) (p : Purpose) (s : State) (h : s.mem.wf = true) :
    (finishWrite b p s).mem.wf = true :=
  serveUntil_wf _ _ _ _ h

/-- The console processor's write and the state after reset. -/
theorem reset_mem_wf : State.reset.mem.wf = true := rfl

end Sys2Proof.Machine
end

