-- ==== Sys2Proof/Tests/Slice0.lean ====
section
/-! SUPPORT. Tests on small states, their expected results taken from the worked examples and the tables of spec/, and
for every statement of Certificates/Slice0/Obligations.lean a state that meets its hypotheses, clause by clause. -/

namespace Sys2Proof.Tests

-- one theorem at a time: every kernel evaluation in flight would take a thread of its own
set_option Elab.async false

open Sys2Proof Sys2Proof.Machine

/-! ### Reading results -/

/-- A value of the next state, where there is one. -/
def out {α : Type} (o : Host.Outcome State Fault Refusal) (f : State → α) : Option α :=
  match o with
  | .next t => some (f t)
  | .fault _ | .refused _ => none

theorem next_of_out {α : Type} {o : Host.Outcome State Fault Refusal} {f : State → α} {x : α} (h : out o f = some x) :
    ∃ t, o = .next t ∧ f t = x := by
  cases o with
  | next t => exact ⟨t, rfl, Option.some.inj h⟩
  | fault _ => exact absurd h (by simp [out])
  | refused _ => exact absurd h (by simp [out])

/-! ### The console of the example of 03_combination_memory_and_actions.md

24 MOVED stops on jamb board 1, eight in each of three divisions, division 2 following division 0; a chest board at
address 2; stop 23 is LIT here, and stop 22 cancel-exempt. -/

/-- Stop n of the console. -/
def stopOf (n : Nat) : StopRec where
  kind := if n = 23 then .lit else .moved
  division := n / 8
  board := 1
  contact := n
  coil := n
  currentClass := if n = 23 then 0 else 12
  pulse := if n = 23 then 0 else 40
  settle := if n = 23 then 0 else 15
  depth := 2
  exempt := n == 22
  lamp := if n = 23 then some 3 else none
  chest := if n = 5 then some (2, 7) else none

def theDesc : Desc where
  header := {
    stops := 24, divisions := 3, boards := 2, generals := 48, levels := 64, pistons := 3, budget := 30
    roundPeriod := 7, replyTimeout := 5, filterShift := 2, hysteresis := 12, lo := 300, hi := 3800
    captureEnable := true, captureScope := 0xFF }
  divisions := [⟨6, none⟩, ⟨6, none⟩, ⟨6, some 0⟩]
  boards := [{ kind := .jamb, contacts := 64, coils := 32, lamps := 32, shoe := true },
    { kind := .chest, chestBits := 96 }]
  stops := (List.range 24).map stopOf
  pistons := [⟨1, 40, .general 3, .thumb, 1⟩, ⟨1, 41, .set, .thumb, 1⟩, ⟨1, 42, .next, .toe, 1⟩]

/-- The console in RUNNING at console clock 1000, both boards PRESENT, RI and CI {0, 1, 8, 16}. -/
def console : State := { State.reset with
  part := .running, run := true, attnEn := true, mask := 0xFF, clock := 1000, clockZeroed := true
  dl := { valid := true, copy := theDesc, loadCause := some .hard, loadedOnce := true }
  ce := { level := 5, captureEnable := true, captureScope := 0xFF }
  cs := { ci := imageOfStops [0, 1, 8, 16] }
  ru := { ri := imageOfStops [0, 1, 8, 16], si := imageOfStops [0, 1, 8, 16], mirror := { shadow := {} } }
  cu := { program := some 0, stageCount := 20, images := List.replicate 21 0, lo := 300, hi := 3800 }
  ms := { unreachable := 0, adopted := Vector.replicate 16 true }
  lc := { boards := ((Vector.replicate 16 ({} : BoardLink)).set 0 { state := .present }).set 1 { state := .present }, due := 1007 }
  jw := { cleared := true, written := 300 } }

/-- The console with one action waiting, from cell 3. -/
def acting (k : ActionKind) : State :=
  { console with ce := { console.ce with queue := [⟨k, .consoleProcessor, some 3⟩] } }

/-- The console with a slot access in flight whose read has taken these bytes. -/
def working (j : EngineJob) (bytes : List Byte) : State := { console with
  ce := { console.ce with job := some j }, port := { ce := ⟨[], bytes⟩ } }

/-- The bytes of a slot whose status, scope, check word and first three image bytes are these. -/
def slotOf (status scope low high i0 i1 i2 : Byte) : List Byte :=
  [status, scope, low, high, 0x70, 0x11, 1, 0, i0, i1, i2] ++ List.replicate 45 0

/-- The G3 slot of level 5 (12_memory_record_formats.md, Example). -/
def slotG3 : List Byte := slotOf 0xC3 6 0x6E 0x60 0x0C 0x06 0x02

/-- The slot of division 2, piston 4 (its check word: 0x20 + 0x1C + 0xFF + 0x5A5A = 0x5B95). -/
def slotD2 : List Byte := slotOf 0xC3 0xFF 0x95 0x5B 0x20 0 0x1C

/-- The slot of division 0, piston 4 (its check word: 0x1014 + 1 + 0x5A5A = 0x6A6F). -/
def slotD0 : List Byte := slotOf 0xC3 1 0x6F 0x6A 0x14 0x10 0

/-- The console with a request in hand whose ACCEPTED is written. -/
def handing (k : RequestKind) (a0 a1 : Nat) : State := { console with
  rs := { sweep := .accepting 3 ⟨k, a0, a1⟩, outstanding := 8 } }

/-- The console with a step request waiting. -/
def stepping (k : StepKind) : State := { console with sq := { console.sq with list := [⟨k, .toe, some 4⟩] } }

/-- The console with a Sequencer read that has taken these bytes. -/
def fetching (j : SequencerJob) (bytes : List Byte) : State := { console with
  sq := { console.sq with job := some j }, port := { sq := ⟨[], bytes⟩ } }

/-- The console with one motion entry. -/
def moving (e : MotionEntry) (committed energised : Nat) : State := { console with
  ms := { console.ms with queue := [e], committed := committed, energised := energised } }

/-- The console with the exchange of board 1 in its reply window. -/
def windowOf (b : BoardLink) (f : LinkFrame) : State := { console with
  lc := { console.lc with boards := console.lc.boards.set 0 b, inRound := true, due := 2000, exchange := .window 0 f } }

/-- The part in LOADING, at this place of a load, with the read of its next field taken. -/
def loading (l : Load) (bytes : List Byte) : State := { State.reset with
  part := .loading, run := true, dl := { phase := .reading l, loadCause := some .hard }, port := { dl := ⟨[], bytes⟩ } }

/-- The journal entry in hand, its time left out. -/
def inHand (s : State) : Option JournalEntry :=
  match s.jw.phase with
  | .countRead e => some { e with time := 0 }
  | .idle | .clearing | .entryWrite _ | .countWrite => none

/-- The results that wait, their times left out. -/
def results (s : State) : List Completion := s.rs.completions.map (fun c => { c with time := 0 })

/-- The cells and results that wait, for results whose value is free (log entry 36). -/
def refusals (s : State) : List (Nat × RequestResult) := s.rs.completions.map (fun c => (c.cell, c.result))

/-! ### Well-formedness: each check refuses an ill-formed command -/

theorem test_wellFormed_control :
    (Instr.runSet 3).wellFormed = false ∧ (Instr.runSet 4).wellFormed = false ∧ (Instr.runClear 1).wellFormed = false ∧
    (Instr.reset 1).wellFormed = false ∧ (Instr.attnEn 6).wellFormed = false ∧ (Instr.runSet 5).wellFormed = true := by
  decide

theorem test_wellFormed_register :
    (Instr.ignoredRegisterWrite 2 0).wellFormed = false ∧ (Instr.ignoredRegisterWrite 3 0).wellFormed = false ∧
    (Instr.ignoredRegisterWrite 5 0).wellFormed = false ∧ (Instr.ignoredRegisterWrite 4 0).wellFormed = true :=
      by decide

theorem test_wellFormed_operands :
    (Instr.replyReceived (List.replicate 19 0)).wellFormed = false ∧ (Instr.pulseEnd 384).wellFormed = false ∧
    (Instr.settleEnd 384).wellFormed = false ∧ (Instr.pulseEnd 383).wellFormed = true ∧
    (Instr.consoleProcessorWrite 0 []).wellFormed = false ∧
    (Instr.consoleProcessorWrite 0x1FFFFF [1, 2]).wellFormed = false ∧
    (Instr.consoleProcessorWrite 0x1FFFFF [1]).wellFormed = true := by decide

/-! ### Decoding: transfers written out bit by bit from R165 (no row of the table has bits) -/

theorem test_decode_transfers :
    decodeTransfer 0b00000010 0 0b101 = some (.runSet 5) ∧ decodeTransfer 0b00000010 0 0b100 = some (.runClear 4) ∧
    decodeTransfer 0b00000010 0 0b111 = some (.reset 7) ∧
      decodeTransfer 0b00000011 0x12 0x34 = some (.attention 0x1234) ∧
    decodeTransfer 0b10000100 0 0 = some .causeRead ∧ decodeTransfer 0b00000101 0 0x80 = some (.maskWrite 0x80) ∧
    decodeTransfer 0b00000100 0 1 = some (.ignoredRegisterWrite 4 1) ∧ decodeTransfer 0b10000001 0 0 = none := by decide

theorem test_decode_no_bits : decodeTableWord 16 0x1234 = none ∧ (State.reset.withFetchWord 16 0x1234) = State.reset :=
  ⟨rfl, rfl⟩

/-! ### Worked examples of spec/ -/

/-- R120: the check of "123456789". -/
theorem test_frame_check : frameCheck [0x31, 0x32, 0x33, 0x34, 0x35, 0x36, 0x37, 0x38, 0x39] = 0x29B1 :=
  by decide +kernel

/-- 03, Example: the check word of the G3 slot and its address; 12, Example: its bytes. -/
theorem test_slot_example :
    checkWord 6 (imageOfStops [2, 3, 9, 10, 17]) = 0x606E ∧ slotAddr 5 3 = 0x028CA8 ∧ slotAddr 5 72 = 0x029BC0 ∧
    slotAddr 5 52 = 0x029760 ∧ slotBytes 6 70000 (imageOfStops [2, 3, 9, 10, 17]) = slotG3 ∧
    judgeSlot slotG3 = .sound 6 (imageOfStops [2, 3, 9, 10, 17]) := by decide +kernel

/-- 05, Example: a shoe near a boundary. -/
theorem test_crescendo_example :
    zoneWidth 20 = 48 ∧ effectiveHysteresis 12 20 = 12 ∧ boundary 20 9 = 438 ∧ boundary 20 10 = 487 ∧
    boundary 20 11 = 536 ∧ boundary 20 20 = 975 ∧ positionOf 300 3800 30400 = 468 ∧ filterStep 2 30400 2000 = 30800 ∧
    filterStep 2 31325 2000 = 31493 ∧ filterStep 2 31997 2000 = 31997 ∧ positionOf 300 3800 31997 = 497 ∧
    stageRule 20 12 497 9 = 9 ∧ stageRule 20 12 504 9 = 10 ∧ stageRule 20 12 497 10 = 10 ∧ stageRule 20 12 474 10 = 9 ∧
    stageRule 20 12 475 10 = 10 := by decide +kernel

/-- 01, Example: the result value of the report. -/
theorem test_report_value : reportValue 2 3 12 = 787202 := by decide

/-- 10, Example: 300 − 44 is full, 300 − 50 is not, and 301 − 400 is. -/
theorem test_journal_full : journalFull 300 44 = true ∧ journalFull 300 50 = false ∧ journalFull 301 400 = true :=
  by decide

/-- R165: what the registers read as. -/
theorem test_registers :
    readRegister 0 console = 0x5C38 ∧ readRegister 1 console = 0x0104 ∧ readRegister 2 console = 5 ∧
    readRegister 5 console = 0xFF ∧ readRegister 3 console = 0 := by decide +kernel
/-! ### Registers, resets and the memory port -/

/-- R155: HARD_RESET gives the hard-reset values; RESET_RELEASE leaves the part HALTED. -/
theorem test_hardReset :
    out (exec .hardReset console) (fun t => (t.inReset, t.part, t.clock, t.ru.ri, t.jw.written)) =
      some (true, .halted, 0, 0, 0) := by decide +kernel

theorem test_resetRelease :
    out (exec .resetRelease { State.reset with inReset := true }) (fun t => (t.inReset, t.part, t.mask)) =
      some (false, .halted, 0) := by decide +kernel

/-- R154, R1: RUN = 1 in HALTED: LOADING, STATE raised, cause HARD, the magic number's two bytes read. -/
theorem test_runSet :
    out (exec (.runSet 5) State.reset) (fun t => (t.part, t.attnEn, t.cause, t.dl.loadCause, t.port.dl.queue.drop 4)) =
      some (.loading, true, 0x80, some .hard, [.read 0, .read 1]) := by decide +kernel

/-- R154, R38, R118: RUN = 0 in RUNNING: HALTED, RI kept, the motion queue empty. -/
theorem test_runClear :
    out (exec (.runClear 0) (moving ⟨2, true, .sent, false, false⟩ 12 1)) (fun t => (t.part, t.ru.ri, t.ms.queue,
      t.ms.committed, t.run)) = some (.halted, imageOfStops [0, 1, 8, 16], [], 0, false) := by decide +kernel

/-- R154, R1: RESET with RUN = 1 in RUNNING: LOADING with cause SOFT; RI is cleared (R38). With RUN = 0 it sends the
part to HALTED. -/
theorem test_reset :
    out (exec (.reset 3) console) (fun t => (t.part, t.dl.loadCause, t.ru.ri, t.ru.si, t.cs.ci, t.ms.unreachable)) =
      some (.loading, some .soft, 0, 0, 0, BitVec.allOnes 384) ∧
    out (exec (.reset 2) console) (fun t => (t.part, t.hasCause .state)) = some (.halted, true) :=
  ⟨by decide +kernel, by decide +kernel⟩

/-- R152: ATTN# falls when ATTN_EN is set while a flag is set and unmasked. -/
theorem test_attnEn :
    out (exec (.attnEn 5) { console with attnEn := false, cause := 0x40 }) (fun t => (t.part, t.attnLow)) =
      some (.running, true) := by decide +kernel

theorem test_attention :
    out (exec (.attention 0xFFFF) console) (fun t => (t.rs.sweep, t.port.rs.queue)) =
      some (.stateRead 0, [.read 0x011000]) := by decide +kernel

theorem test_causeRead :
    out (exec .causeRead { console with cause := 0x83 }) (fun t => (t.readData, t.cause, t.attnLow)) =
      some (0x83, 0, false) := by decide +kernel

theorem test_maskWrite : out (exec (.maskWrite 0xFF41) console) (fun t => t.mask) = some 0x41 := by decide +kernel

theorem test_ignoredRegisterWrite :
    out (exec (.ignoredRegisterWrite 1 0xFFFF) console) (fun t => (t.part, t.mask, t.cause)) =
      some (.running, 0xFF, 0) := by decide +kernel

/-- R136: the last byte of console memory, and the byte beyond it. -/
theorem test_consoleProcessorWrite :
    out (exec (.consoleProcessorWrite 0x1FFFFF [0xAB]) console) (fun t => t.mem.read 0x1FFFFF) = some 0xAB ∧
    exec (.consoleProcessorWrite 0x1FFFFF [0xAB, 1]) console = .fault (.outsideConsoleMemory 2097152) :=
  ⟨by decide +kernel, rfl⟩

/-- A port at which the Journal Writer and the Request Scanner wait, the Link Controller served last. -/
def busyPort : Port := { served := .lc, jw := ⟨[.read 0x011404], []⟩, rs := ⟨[.write .accept 0x011000 2], []⟩ }

theorem witness_EmptyQueueServesPortOrClock :
    (({ State.reset with inReset := true }).pending = [] ∧
      ({ State.reset with inReset := true } : State).inReset = true) ∧
    (({ console with port := busyPort } : State).pending = [] ∧
      ({ console with port := busyPort } : State).inReset = false ∧
      busyPort.granted = some .rs) ∧
    (({ console with clock := 1007 } : State).port.granted = none ∧
      ({ console with clock := 1007 } : State).eventDue = true) ∧
    (({ console with clock := 1006 } : State).port.granted = none ∧
      ({ console with clock := 1006 } : State).eventDue = false) := by decide +kernel

theorem witness_PortServesInRotation :
    busyPort.granted = some .rs ∧ console.port.granted = none ∧
    ((({ console with port := busyPort } : State).port.get .jw).queue ≠ []) := by decide +kernel

/-- No other block waits with a write, whatever the address. -/
theorem nobody_else (s : State) (b : Block) (k : Nat)
    (h : ∀ c ∈ b.rotation, c ≠ b → ∀ x ∈ (s.port.get c).queue, x.isRead = true) : ¬ s.port.othersMayWrite b k := by
  rintro ⟨c, hc, x, hx, hw⟩
  have hr : c ∈ b.rotation := by cases b <;> cases c <;> decide
  have := h c hr hc x hx
  cases x with
  | read _ => simp [Access.writes] at hw
  | write _ _ _ => simp [Access.isRead] at this

theorem witness_ReadTakesItsBytes :
    let s : State := { console with port := { ce := ⟨[.write .mirror 0x0101A5 1] ++ readAccesses 0x028CA8 56 ++ [], []⟩ } }
    s.mem.wf = true ∧
    (s.port.get .ce).queue = [.write .mirror 0x0101A5 1] ++ readAccesses 0x028CA8 56 ++ [] ∧ (s.port.get .ce).buf = [] ∧
    (∀ x ∈ [Access.write .mirror 0x0101A5 1], x.isRead = false) ∧ (∀ x ∈ ([] : List Access), x.isRead = false) ∧
    (∀ k, 0x028CA8 ≤ k → k < 0x028CA8 + 56 →
      ¬ s.port.othersMayWrite .ce k ∧ ∀ x ∈ [Access.write .mirror 0x0101A5 1], x.writes k = false) := by
  refine ⟨by decide +kernel, rfl, rfl, by decide, by decide, fun k h _ => ⟨nobody_else _ _ _ (by decide +kernel), ?_⟩⟩
  intro x hx
  simp only [List.mem_singleton] at hx
  subst hx
  simp only [Access.writes, beq_eq_false_iff_ne]
  omega

theorem witness_WriteStoresItsBytes :
    let s : State := { console with port := { rs := ⟨[.read 0x011010] ++ writeAccesses .accept 0x011000 [2] ++ [], []⟩ } }
    s.mem.wf = true ∧
    (s.port.get .rs).queue = [.read 0x011010] ++ writeAccesses .accept 0x011000 [2] ++ [] ∧
    (∀ x ∈ [Access.read 0x011010], x.isFor .accept = false) ∧ (∀ x ∈ ([] : List Access), x.isFor .accept = false) ∧
    (∀ k, 0x011000 ≤ k → k < 0x011000 + [(2 : Byte)].length → ¬ s.port.othersMayWrite .rs k) :=
  ⟨by decide +kernel, rfl, by decide, by decide, fun k _ _ => nobody_else _ _ _ (by decide +kernel)⟩

theorem witness_MemoryStaysCanonical :
    ({ console with mem := [(5, 1), (9, 2)], pending := [.consoleProcessorWrite 7 [3]] } : State).mem.wf = true ∧
    ∃ t, step { console with mem := [(5, 1), (9, 2)], pending := [.consoleProcessorWrite 7 [3]] } = .next t ∧
      t.mem = [(5, 1), (7, 3), (9, 2)] :=
  ⟨by decide, next_of_out (f := fun t => t.mem) (by decide +kernel)⟩

theorem witness_ConsoleProcessorWrites :
    console.mem.wf = true ∧ (0x1FFFFE#21).toNat + [(1 : Byte), 2].length ≤ 2097152 ∧
    2097152 < (0x1FFFFE#21).toNat + [(1 : Byte), 2, 3].length := by decide

theorem witness_HardResetAndRelease :
    (∃ u, exec .hardReset console = .next u ∧ u.inReset = true) ∧
    ({ State.reset with inReset := true } : State).inReset = true :=
  ⟨next_of_out (by decide +kernel), rfl⟩

theorem witness_ResetLineHoldsPart :
    HeldInReset { State.reset with inReset := true, mem := [(5, 1)], pending := [.runSet 1] } ∧
    ∃ t, step { State.reset with inReset := true, mem := [(5, 1)], pending := [.runSet 1] } = .next t ∧
      t.part = .halted :=
  ⟨fun _ => rfl, next_of_out (f := fun t => t.part) (by decide +kernel)⟩

theorem witness_ControlWriteChangesState :
    console.inReset = false ∧ Instr.attnEn 5 ∈ [Instr.runSet 5, .runClear 5, .reset 5, .attnEn 5] := by decide

/-- R36, R118: RUN = 0 in DESC_ERROR abandons the full image update of the load, and the motion mirrors it marks stale are
written. -/
theorem test_runClear_descError :
    out (exec (.runClear 0) { State.reset with
      part := .descError, run := true, dl := { loadCause := some .hard }
      ru := { State.reset.ru with mirror := { count := 1, updating := true, shadow := {} } }
      port := { ru := ⟨writeAccesses .mirror 0x010000 [2, 0, 0, 0], []⟩ } }) (fun t =>
        (t.part, t.ru.mirror.updating, t.ru.mirror.count, t.port.ru.queue, t.port.ms.queue.take 1)) =
      some (.halted, false, 1, [], [.write .mirror 0x010100 1]) := by
  decide +kernel

/-- R118: between a hard reset and the first entry to LOADING a write of RUN = 0 writes no mirror. -/
theorem test_runClear_before_loading :
    out (exec (.runClear 4) State.reset) (fun t => (t.part, t.attnEn, t.ms.mirror.updating, t.port)) =
      some (.halted, true, false, {}) := by decide +kernel

/-- The part in LOADING for the RELOAD of cell 7, with a result of cell 1 waiting. -/
def reloading : State := { State.reset with
  part := .loading, run := true, clock := 0x1234
  rs := { outstanding := 0x88, completions := [⟨1, .ok, 5, 900⟩], reloadCell := some 7 }
  port := { rs := ⟨completionAccesses ⟨1, .ok, 5, 900⟩, []⟩ } }

/-- R16, R140, R144: RUN = 0 writes the reload cell DONE, ABANDONED, 0 before HALTED, behind the result that waited. -/
theorem test_runClear_reload :
    out (exec (.runClear 0) reloading) (fun t =>
      (t.part, t.mem.read 0x011010, t.mem.readBytes 0x011070 16, results t, t.rs.outstanding)) =
      some (.halted, 3, [3, 0, 9, 0, 0, 0, 0, 0, 0, 0, 0, 0, 0x34, 0x12, 0, 0], [], 8) := by decide +kernel

theorem witness_RunClearEndsWork :
    (console.inReset = false ∧ (4 : BitVec 16).getLsbD 0 = false ∧ console.part = .running) ∧
    ({ State.reset with part := .loading } : State).part = .loading ∧
    ({ State.reset with part := .census } : State).part = .census ∧
    (console.ru.mirror.full = false ∧ State.reset.ru.mirror.full = false) ∧
    (State.reset.part = .halted ∧ ({ State.reset with part := .descError } : State).part = .descError) ∧
    (reloading.rs.reloadCell = some 7 ∧ reloading.mem.wf = true ∧ reloading.part = .loading ∧
      ∀ k, 0x011000 + 16 * 7 ≤ k → k < 0x011000 + 16 * 7 + 16 → ¬ reloading.port.othersMayWrite .rs k) ∧
    ({ State.reset with ru := { State.reset.ru with mirror := { full := true, shadow := {} } } } : State).ru.mirror.full =
      true ∧
    ({ console with ms := { mirror := { updating := true, shadow := {} } } } : State).ms.mirror.updating = true ∧
    console.dl.loadCause ≠ none ∧ (State.reset.inReset = false ∧ State.reset.dl.loadCause = none ∧
      State.reset.ms.queue = [] ∧ State.reset.ms.committed = 0 ∧ State.reset.ms.energised = 0 ∧
      State.reset.ms.mirror.settled ∧ State.reset.ms.mirror.updating = false) :=
  ⟨by decide, by decide, by decide, by decide, by decide,
    ⟨by decide, by decide, by decide, fun _ _ _ => nobody_else _ _ _ (by decide +kernel)⟩, by decide, by decide, by decide,
    by decide, by decide, by decide, by decide, by decide, by unfold Mirror.settled; decide, by decide⟩

theorem witness_LoadingClearsBlocks :
    console.inReset = false ∧ (3 : BitVec 16).getLsbD 0 = true ∧
    (Instr.reset 3 = .reset 3 ∧ (3 : BitVec 16).getLsbD 1 = true) ∧
    State.reset.inReset = false ∧ (1 : BitVec 16).getLsbD 0 = true ∧ State.reset.part = .halted ∧
    ({ State.reset with part := .descError } : State).part = .descError := by decide

/-- Cells 1, 3 and 31 outstanding, 1 with a result that waits, 7 the reload cell; cell 3 in acceptance or not. -/
def holding (sweep : Sweep) (q : BlockPort) : State := { State.reset with
  rs := { sweep := sweep, outstanding := 0x8000000A, completions := [⟨1, .ok, 5, 900⟩], reloadCell := some 7 }
  port := { rs := q } }

theorem witness_LoadingAbandonsCells :
    ((holding .idle {}).inReset = false ∧ (3 : BitVec 16).getLsbD 0 = true ∧ (3 : BitVec 16).getLsbD 1 = true ∧
      (1 : BitVec 16).getLsbD 1 = false ∧ (holding .idle {}).part = .halted ∧
      ({ holding .idle {} with part := .descError } : State).part = .descError) ∧
    ((0x8000000A : BitVec 32) = (holding .idle {}).rs.outstanding ∧
      (0x80000002 : BitVec 32) = setBit (holding (.accepting 3 ⟨.undo, 0, 0⟩) {}).rs.outstanding 3 false ∧
      BlockPort.writeDone .accept ⟨[.write .accept 0x011030 2], []⟩ = false) ∧
    out (exec (.reset 3) (holding .idle {})) results =
      some [⟨1, .ok, 5, 0⟩, ⟨7, .abandoned, 0, 0⟩, ⟨3, .abandoned, 0, 0⟩, ⟨31, .abandoned, 0, 0⟩] ∧
    out (exec (.runSet 1) (holding (.accepting 3 ⟨.undo, 0, 0⟩) ⟨[.write .accept 0x011030 2], []⟩)) results =
      some [⟨1, .ok, 5, 0⟩, ⟨31, .abandoned, 0, 0⟩] :=
  ⟨by decide, by decide, by decide +kernel, by decide +kernel⟩

theorem witness_RegisterTransfers :
    console.inReset = false ∧ (6 : BitVec 3) ≠ 2 ∧ (6 : BitVec 3) ≠ 3 ∧ (6 : BitVec 3) ≠ 5 ∧
    ({ State.reset with inReset := true } : State).inReset = true := by decide

theorem witness_AttentionTriggersSweep :
    (console.inReset = false ∧ console.part = .running ∧ console.rs.sweep = .idle) ∧
    (({ console with rs := { sweep := .stateRead 31 } } : State).part = .running ∧
      ({ console with rs := { sweep := .stateRead 31 } } : State).rs.sweep ≠ .idle) ∧
    State.reset.part ≠ .running := by decide

/-! ### The description load -/

/-- R1, R2, R13: a wrong magic number, once the header is read whole: FIELD_RANGE, class HEADER, index 0. -/
theorem test_firstFailure :
    firstFailure (headerChecks [0xC385, 0]) = some 2 ∧ firstFailure (headerChecks [0xC384, 385]) = some 1 := by decide

/-- A whole header that passes, its budget, lo and hi on their bounds. -/
def headerFields : List Nat := [0xC384, 384, 8, 16, 48, 255, 256, 256, 400, 20, 20, 4, 32, 3839, 4095, 3, 1, 1, 255]

theorem test_header_bounds :
    firstFailure (headerChecks headerFields) = none ∧ firstFailure (headerChecks (headerFields.set 13 3840)) = some 9 ∧
    firstFailure (headerChecks (headerFields.set 5 256)) = some 11 := by decide

theorem witness_ChecksInOrderAndHeaderRanges :
    firstFailure [(true, 2), (false, 9), (false, 1)] = some 9 ∧ firstFailure [(true, 2), (true, 9)] = none ∧
    firstFailure (headerChecks headerFields) = none ∧ (divisionChecks {} 0 []).map Prod.snd = [1, 2] := by decide

/-- 01, Example: bit 101 on a chest board of 96 bits is FIELD_RANGE; bit 91 of another stop is CHEST_CLASH. -/
theorem test_report_example :
    firstFailure (stopChecks { theDesc with stops := [] } [0, 0, 1, 12, 12, 10, 50, 20, 2, 0, 0, 0, 1, 2, 101]) =
      some 2 ∧
    firstFailure (stopChecks { theDesc with stops := [{ contact := 9, coil := 9, chest := some (2, 91) }] }
      [0, 0, 1, 12, 12, 10, 50, 20, 2, 0, 0, 0, 1, 2, 91]) = some 7 := by decide +kernel

theorem witness_PassedStopAndPistonRecords :
    firstFailure (stopChecks { theDesc with stops := [stopOf 3] } [0, 2, 1, 63, 31, 40, 250, 100, 8, 1, 1, 31, 1, 2,
      95]) = none ∧
    firstFailure (stopChecks { theDesc with stops := [stopOf 3] } [1, 0, 1, 0, 0, 0, 0, 0, 1, 0, 0, 0, 0, 0, 0]) =
      none ∧
    (stopRecOf [0, 2, 1, 63, 31, 40, 250, 100, 8, 1, 1, 31, 1, 2, 95]).chest = some (2, 95) ∧
    (firstFailure (pistonChecks theDesc [1, 63, 1, 1, 8, 2, 5]) = none ∧
      (pistonOf [1, 63, 1, 1, 8, 2, 5]).function = .divisional 2 5) ∧
    (firstFailure (divisionChecks theDesc.header 1 [10, 2]) = none ∧
      firstFailure (divisionChecks theDesc.header 2 [10, 2]) = some 2 ∧
      firstFailure (divisionChecks theDesc.header 1 [11, 0xFF]) = some 1) ∧
    (firstFailure (boardChecks [{ kind := .jamb }] [1, 64, 32, 32, 1, 0]) = none ∧
      firstFailure (boardChecks [] [2, 255, 255, 255, 0, 128]) = none ∧
      firstFailure (boardChecks [] [2, 0, 0, 0, 1, 0]) = some 3 ∧
      firstFailure (boardChecks [{ kind := .jamb, shoe := true }] [1, 0, 0, 0, 1, 0]) = some 8) := by decide +kernel

/-- A load at the record of division 0, whose piston count has been read. -/
def atDivision : Load := { place := .division 0, fields := [6], copy := { header := theDesc.header } }

/-- R1, R4: the follow of division 0 is read: NONE passes, itself is FIELD_RANGE, class DIVISION, index 0. -/
theorem test_descriptionReadCompletion :
    out (exec .descriptionReadCompletion (loading atDivision [0xFF])) (fun t => (t.dl.phase, t.port.dl.queue)) =
      some (.reading { place := .division 1, copy := { header := theDesc.header, divisions := [⟨6, none⟩] } },
        [.read 0x22]) ∧
    out (exec .descriptionReadCompletion (loading atDivision [0])) (fun t =>
      (t.dl.errorCode, t.dl.recordClass, t.port.dl.queue)) =
        some (2, 1, writeAccesses .report 0x0101C0 [2, 1, 0, 0]) := by decide +kernel

theorem witness_RecordCheckedWhenFull :
    ((loading {} [0x84, 0xC3]).dl.phase = .reading {} ∧ (∀ p r, ({} : Load).place ≠ .program p r) ∧
      LoadPlace.header.padded 19 ([] ++ [natLE [0x84, 0xC3]]) = [0xC384] ∧ 1 < LoadPlace.header.fields.length) ∧
    ((loading atDivision [0xFF]).dl.phase = .reading atDivision ∧ (∀ p r, atDivision.place ≠ .program p r) ∧
      atDivision.place.padded 2 (atDivision.fields ++ [natLE [0xFF]]) = [6, 0xFF] ∧
      ¬ [6, 0xFF].length < atDivision.place.fields.length ∧
      firstFailure (recordChecks atDivision.copy atDivision.place [6, 0xFF]) = none) ∧
    firstFailure (recordChecks atDivision.copy atDivision.place [6, 0]) = some 2 ∧
    (LoadPlace.header.nextField [0xC384] = some (2, 2) ∧ (LoadPlace.board 15).nextField [1, 2, 3, 4, 5] = some (0xBE, 2) ∧
      (LoadPlace.stop 383).nextField [] = some (0x18F0, 1) ∧ (LoadPlace.piston 255).nextField [] = some (0x20F8, 1) ∧
      (LoadPlace.program 3 { offset := 4 }).nextField [] = some (0x018004, 2)) ∧
    ((LoadPlace.stop 0).padded 15 [1, 0, 1, 9] = [1, 0, 1, 9, 0, 0, 0, 0] ∧
      (LoadPlace.piston 0).padded 7 [1, 0, 2, 0, 1] = [1, 0, 2, 0, 1, 0, 0]) :=
  ⟨⟨rfl, fun _ _ h => LoadPlace.noConfusion h, by decide, by decide⟩,
    ⟨rfl, fun _ _ h => LoadPlace.noConfusion h, by decide, by decide, by decide +kernel⟩, by decide +kernel, by decide, by decide⟩

/-- A load in program p at this field. -/
def atProgram (p : Nat) (r : ProgramRead) : Load := { place := .program p r, copy := theDesc }

/-- R10: a stage count of 61 in program 1: CRESC_RANGE, class PROGRAM, index 1. -/
theorem test_program_range :
    out (exec .descriptionReadCompletion (loading (atProgram 1 {}) [61, 0])) (fun t =>
      (t.dl.errorCode, t.dl.recordClass, t.dl.recordIndex)) = some (10, 5, 1) := by decide +kernel

theorem witness_ProgramCheckedAtLoad :
    (loading (atProgram 1 {}) [61, 0]).dl.phase = .reading (atProgram 1 {}) ∧
    (atProgram 1 {}).place = .program 1 {} ∧ ProgramRead.take 24 {} (natLE [61, 0]) = .failed 0 ∧
    ProgramRead.take 24 {} (natLE [60, 0]) = .more { field := .stopCount, offset := 2, total := 60 } ∧
    ProgramRead.take 24 { field := .stopCount, offset := 2, total := 1 } (natLE [0, 0]) = .whole [[]] ∧
    ProgramRead.take 24 { field := .stopNumber 1, offset := 4, total := 1 } (natLE [23, 0]) = .whole [[23]] ∧
    ProgramRead.take 24 { field := .stopNumber 1, offset := 4, total := 1 } (natLE [24, 0]) = .failed 1 :=
      by decide +kernel

/-- The last field of the last program, in a load of cause HARD. -/
def atLastField : State := loading (atProgram 3 { field := .stopCount, offset := 2, total := 1 }) [0, 0]

/-- R14, R15: the hand-over: CENSUS, the description's level, program and ends, and the first census request. -/
theorem test_handOver :
    out (exec .descriptionReadCompletion atLastField) (fun t =>
      (t.part, t.cu.program, t.cu.lo, t.cu.hi, t.lc.exchange)) =
      some (.census, some 0, 300, 3800, .sending 0 .census) := by decide +kernel

theorem witness_HandOverByCause :
    atLastField.dl.phase = .reading (atProgram 3 { field := .stopCount, offset := 2, total := 1 }) ∧
    ProgramRead.take 24 { field := .stopCount, offset := 2, total := 1 } (natLE ((finishRead .dl atLastField).readBytes .dl)) =
      .whole [[]] ∧
    (theDesc.board 1).kind ≠ .none ∧ atLastField.lc.boards[1].state = .unknown := by decide +kernel

/-- R13: the report is written: DESC_ERROR and STATE. -/
theorem test_errorReportWriteCompletion :
    out (exec .errorReportWriteCompletion { State.reset with part := .loading, dl := { phase := .reporting none } })
      (fun t => (t.part, t.cause)) = some (.descError, 0x80) := by decide +kernel

theorem witness_ReportEntersDescError :
    let s : State := { State.reset with dl := { phase := .reporting (some 5) }, rs := { completions := [⟨5, .range, 2, 0⟩] } }
    s.dl.phase = .reporting (some 5) ∧ s.completionWaits 5 = true ∧
    (∀ c, some 6 = some c → s.completionWaits c = false) := by
  refine ⟨rfl, by decide, fun c h => ?_⟩
  cases h
  decide

/-! ### Invariants -/

/-- A state whose SI is what it is recomputed to be meets R22. -/
theorem union_of_speaking {s : State} (h : s.ru.si = s.speaking) : SpeakingIsUnion s := by
  intro n
  rw [h]
  unfold State.speaking
  cases s.ru.tutti <;> simp

theorem witness_SpeakingIsUnionKept :
    SpeakingIsUnion { acting .cancel with pending := [.cancel] } ∧
    ∃ t, step { acting .cancel with pending := [.cancel] } = .next t ∧ t.ru.si = 0 :=
  ⟨union_of_speaking (by decide +kernel), next_of_out (f := fun t => t.ru.si) (by decide +kernel)⟩

theorem witness_ListsBoundedKept :
    (let s : State := { handing .cancel 0 0 with
        ce := { console.ce with
          queue := List.replicate 8 ⟨.cancel, .thumb, none⟩, undo := List.replicate 4 0, job := some .runningTuttiRead }
        pending := [.cancelRequest] }
     ListsBounded s ∧ ∃ t, step s = .next t ∧ t.ce.queue.length = 8) ∧
    NoneWaitsIdle { handing .recall 5 3 with pending := [.recallRequest] } ∧
      ∃ t, step { handing .recall 5 3 with pending := [.recallRequest] } = .next t ∧
        (t.ce.queue, t.ce.job.isSome) = ([], true) :=
  ⟨⟨by unfold ListsBounded; decide, next_of_out (f := fun t => t.ce.queue.length) (by decide +kernel)⟩,
    fun _ => ⟨fun _ => rfl, fun _ => rfl⟩, next_of_out (f := fun t => (t.ce.queue, t.ce.job.isSome)) (by decide +kernel)⟩

theorem witness_CountsAndSpanKept :
    CountsGuard { console with pending := [.causeRead] } ∧ SpanKept { console with pending := [.causeRead] } ∧
    ∃ t, step { console with pending := [.causeRead] } = .next t ∧ t.cause = 0 := by
  refine ⟨by unfold CountsGuard; decide, ⟨fun _ => by decide, fun l h => ?_, fun h => ?_⟩,
    next_of_out (f := fun t => t.cause) (by decide +kernel)⟩
  · exact LoaderPhase.noConfusion h
  · exact absurd h (by decide)

/-- The console with its mirrors showing its values, and a command and an action waiting. -/
def mirrored (k : ActionKind) (i : Instr) : State := { acting k with
  ru := { console.ru with mirror := { shadow := console.imageValues } }
  cu := { console.cu with mirror := { shadow := console.crescendoValues } }
  ms := { console.ms with mirror := { shadow := console.motionValues } }
  lc := { console.lc with mirror := { shadow := console.linkValues } }
  pending := [i] }

/-- R36: CANCEL changes the images, the motion queue and board 1's outgoing list, and the three groups' updates begin. -/
theorem witness_MirrorsFollow :
    HeldInReset (mirrored .cancel .cancel) ∧ MirrorsFollow (mirrored .cancel .cancel) ∧
    (mirrored .cancel .cancel).ru.mirror.updating = false ∧ (mirrored .cancel .cancel).cu.mirror.updating = false ∧
    (mirrored .cancel .cancel).ms.mirror.updating = false ∧ (mirrored .cancel .cancel).lc.mirror.updating = false ∧
    ∃ t, step (mirrored .cancel .cancel) = .next t ∧
      (t.inReset, t.ru.mirror.updating, t.cu.mirror.updating, t.ms.mirror.updating, t.lc.mirror.updating) =
        (false, true, false, true, true) := by
  refine ⟨fun h => absurd h (by decide), ⟨fun h => absurd rfl h, ?_, ?_, ?_, ?_, fun _ =>
      ⟨fun _ _ => rfl, fun _ => rfl, fun _ => rfl, fun _ => rfl⟩⟩, rfl, rfl, rfl, rfl,
    next_of_out (f := fun t =>
      (t.inReset, t.ru.mirror.updating, t.cu.mirror.updating, t.ms.mirror.updating, t.lc.mirror.updating))
      (by decide +kernel)⟩ <;> exact ⟨rfl, fun h => absurd h (by decide)⟩

/-- Stop 2 SENT with its class of 12 committed, and an UNDO waiting. -/
def budgeted : State := { moving ⟨2, true, .sent, false, false⟩ 12 1 with pending := [.causeRead] }

theorem witness_BudgetKeptByEveryStep :
    MotionSound budgeted ∧ ∃ t, step budgeted = .next t ∧ t.ms.committed = 12 := by
  refine ⟨⟨⟨by decide +kernel, by decide +kernel, Or.inl (by decide +kernel), by decide, by decide +kernel⟩,
    by unfold OneEntryPerStop; decide, fun l h =>
      ?_, by unfold Desc.ClassesPositive; decide +kernel, by decide +kernel⟩,
    next_of_out (f := fun t => t.ms.committed) (by decide +kernel)⟩
  exact LoaderPhase.noConfusion h

/-! ### Change sets, motion entries and dispatch -/

/-- 03, Example: the change set of the G3 recall over divisions 1 and 2. -/
def setG3 : ChangeSet := ⟨imageOfStops ((List.range 16).map (· + 8)), imageOfStops [2, 3, 9, 10, 17], false⟩

/-- 03, Example: RI becomes {0, 1, 9, 10, 17}; the offs go first, and the budget of 30 lets two of class 12 go. -/
theorem test_change_set :
    (applyChangeSet setG3 console).ru.ri = imageOfStops [0, 1, 9, 10, 17] ∧ console.movesOf setG3 = 5 ∧
    (applyChangeSet setG3 console).ms.queue.map (fun e => (e.stop, e.target, e.state)) =
      [(8, false, .sent), (16, false, .sent), (9, true, .queued), (10, true, .queued), (17, true, .queued)] ∧
    (applyChangeSet setG3 console).ms.committed = 24 := by decide +kernel

theorem witness_ChangeSetApplied :
    applyChangeSet setG3 { console with ms := { console.ms with fault := imageOfStops [9] } } =
      applyChangeSet setG3 { console with ms := { console.ms with fault := imageOfStops [9] } } ∧
    ({ console with ms := { console.ms with fault := imageOfStops [9] } } : State).isHeld 9 = true ∧
    console.movedBy setG3 = imageOfStops [8, 9, 10, 16, 17] := ⟨rfl, by decide +kernel, by decide +kernel⟩

/-- Stops 8 off and 9 on QUEUED, 16 off SENT; RI then has 8 on again and 9, 16 and 10 on. -/
def retargeting : State := { console with
  ru := { console.ru with ri := imageOfStops [0, 1, 8, 16, 10] }
  ms := { console.ms with queue := [⟨8, false, .queued, false, false⟩, ⟨16, false, .sent, false, false⟩], committed := 12, energised := 1 } }

theorem witness_MovesEnqueued :
    let s := retargeting
    let moved := imageOfStops [8, 10, 16]
    s.ms.queue.filter (fun e =>
      !(moved.getLsbD e.stop && e.isQueued && s.ru.ri.getLsbD e.stop == s.cs.ci.getLsbD e.stop)) =
      [⟨16, false, .sent, false, false⟩] ∧
    (List.range 384).filter (fun n => moved.getLsbD n && s.ru.ri.getLsbD n != s.cs.ci.getLsbD n &&
      !s.ms.queue.any (fun e => e.stop == n)) = [10] ∧
    (enqueueMoves moved s).ms.queue = [⟨16, true, .sent, false, true⟩, ⟨10, true, .sent, false, false⟩] :=
      by decide +kernel

/-- 07, Example: with 24 committed of 30, a class of 12 waits, and nothing behind it goes. -/
theorem test_dispatch_waits :
    (examineDispatch (moving ⟨2, true, .queued, false, false⟩ 24 2)).ms.committed = 24 ∧
    (examineDispatch (moving ⟨2, true, .queued, false, false⟩ 18 2)).ms.committed = 30 := by decide +kernel

theorem witness_DispatchInOrder :
    State.reset.part ≠ .running ∧ console.part = .running ∧
    (fun q : List MotionEntry => ((q.filter MotionEntry.isQueued).map (fun e => console.desc.currentClass e.stop)).sum)
      [⟨2, true, .queued, false, false⟩] = 12 := by decide +kernel

/-- R108: PULSE_END at 1003: the class is released, the settle time of 15 ms runs. -/
theorem test_pulseEnd :
    out (exec (.pulseEnd 2) (moving ⟨2, true, .pulsing 1003, false, false⟩ 12 1)) (fun t =>
      (t.clock, t.ms.committed, t.ms.energised, t.ms.queue.map MotionEntry.state)) =
      some (1003, 0, 0, [.settling 1018]) := by decide +kernel

/-- R110, R31, and 07, Example: the second failed settle is a motion fault; RI takes the stop's CI bit. -/
theorem test_settleEnd_fault :
    out (exec (.settleEnd 16) (moving ⟨16, false, .settling 1003, true, false⟩ 0 0)) (fun t =>
      (t.ms.queue, t.ms.fault, t.ru.ri, inHand t)) =
      some ([], imageOfStops [16], imageOfStops [0, 1, 8, 16], some ⟨.motionFault, .none, 5, 0xFF, 16, 0, 0⟩) := by
  decide +kernel

/-- R109: the first failed settle goes to the tail with retried set, and is dispatched at once. -/
theorem test_settleEnd_retry :
    out (exec (.settleEnd 16) (moving ⟨16, false, .settling 1003, false, false⟩ 0 0)) (fun t =>
      (t.ms.queue, t.ms.committed)) =
      some ([⟨16, false, .sent, true, false⟩], 12) := by decide +kernel

theorem witness_PulseAndSettleEnd :
    let p := moving ⟨2, true, .pulsing 1003, false, false⟩ 12 1
    let q := fun e : MotionEntry => moving e 0 0
    (p.ms.entryOf 2 = some ⟨2, true, .pulsing 1003, false, false⟩ ∧ p.isNextDue 1003 = true ∧
      (p.clock + BitVec.ofNat 32 (ahead p.clock 1003)) = 1003) ∧
    ((q ⟨16, true, .settling 1003, true, true⟩).ms.entryOf 16 = some ⟨16, true, .settling 1003, true, true⟩ ∧
      console.cs.ci.getLsbD 16 = true) ∧
    ((q ⟨16, false, .settling 1003, true, true⟩).isNextDue 1003 = true ∧
      (q ⟨16, false, .settling 1003, true, false⟩).isNextDue 1003 = true) := by decide +kernel

/-- R27, R28: a hand draws stop 9, which was faulted and had no entry; a hand completes a QUEUED move of stop 2. -/
theorem test_handMove :
    (fun t : State => (t.ru.ri, t.cs.ci, t.ms.fault))
      (handMove 9 true { console with ms := { console.ms with fault := imageOfStops [9, 10] } }) =
      (imageOfStops [0, 1, 8, 9, 16], imageOfStops [0, 1, 8, 9, 16], imageOfStops [10]) ∧
    (fun t : State => (t.ru.ri, t.cs.ci, t.ms.queue)) (handMove 2 true (moving ⟨2, true, .queued, false, false⟩ 0 0)) =
      (imageOfStops [0, 1, 8, 16], imageOfStops [0, 1, 2, 8, 16], []) := by decide +kernel

theorem witness_HandMoveTaken :
    9 < 384 ∧ console.ms.entryOf 9 = none ∧
    (let s := moving ⟨2, true, .queued, false, false⟩ 0 0
     s.ms.entryOf 2 = some ⟨2, true, .queued, false, false⟩ ∧
       s.ms.dispatchHead = some ⟨2, true, .queued, false, false⟩) ∧
    (let s : State := { console with ms := { console.ms with
       queue := [⟨3, true, .queued, false, false⟩, ⟨2, true, .queued, false, false⟩] } }
     s.ms.entryOf 2 = some ⟨2, true, .queued, false, false⟩ ∧
       s.ms.dispatchHead ≠ some ⟨2, true, .queued, false, false⟩) ∧
    (let s := moving ⟨383, true, .settling 1003, false, false⟩ 0 0
     s.ms.entryOf 383 = some ⟨383, true, .settling 1003, false, false⟩) := by decide +kernel

/-- R34: stop 2's drawknob reads on at the board's first PRESENT; RI takes it from CI, and nothing moves. -/
theorem test_adoption :
    (fun t : State => (t.ru.ri, t.cs.ci, t.ms.queue, t.ms.adopted[0]))
      (regainBoard 0 (adoptContacts 0 4 { console with ms := {} })) =
      (imageOfStops [2], imageOfStops [2], [], true) := by decide +kernel

theorem witness_BoardLossAndReturn :
    (∀ k : Fin 384, (decide (k.val < 384) && (console.desc.stops[k.val]?).any (fun r => r.board == 1)) = decide (k.val < 24)) ∧
    console.ms.adopted[0] = true ∧ ({ console with ms := {} } : State).ms.adopted[0] = false ∧
    (∀ e ∈ console.ms.queue, e.stop ∉ [1, 2]) ∧
    (console.desc.role 0 0 = some (.sense 0 2) ∧ console.desc.role 0 63 = none) := by decide +kernel

/-! ### Actions -/

theorem nextAction_acting (k : ActionKind) : (acting k).nextAction = some ⟨k, .consoleProcessor, some 3⟩ := rfl

/-- R53: stop 22 is cancel-exempt and keeps its bit. -/
theorem test_cancel :
    out (exec .cancel { acting .cancel with ru := { console.ru with ri := imageOfStops [0, 16, 22] } }) (fun t =>
      (t.ru.ri, results t, inHand t)) =
      some (imageOfStops [22], [⟨3, .ok, 2, 0⟩], some ⟨.cancelled, .consoleProcessor, 5, 0xFF, 2, 0, 0⟩) := by
  decide +kernel

/-- R58, and 03, Example: UNDO gives {0, 1, 9, 10, 17} back, with arg B the depth left. -/
theorem test_undo :
    out (exec .undo { acting .undo with ce := { (acting .undo).ce with
      undo := [imageOfStops [0, 1, 9, 10, 17], imageOfStops [0, 1, 8, 16]] } }) (fun t =>
        (t.ru.ri, t.ce.undo, inHand t)) =
      some (imageOfStops [0, 1, 9, 10, 17], [imageOfStops [0, 1, 8, 16]],
        some ⟨.undo, .consoleProcessor, 5, 0xFF, 5, 1, 0⟩) := by
  decide +kernel

theorem witness_CancelAndUndoTaken :
    (acting .cancel).nextAction = some ⟨.cancel, .consoleProcessor, some 3⟩ ∧
    (acting .undo).nextAction = some ⟨.undo, .consoleProcessor, some 3⟩ ∧ (acting .undo).ce.undo = [] ∧
    ({ acting .undo with ce := { (acting .undo).ce with undo := [1, 2, 3, 4] } } : State).ce.undo = 1 :: [2, 3, 4] :=
  ⟨rfl, rfl, rfl, rfl⟩

/-- R56: REVERSE of stop 8, on, moves it off; a faulted stop's is DISABLED. -/
theorem test_reverse :
    out (exec .reverse (acting (.reverse 8))) (fun t => (t.ru.ri, results t)) =
      some (imageOfStops [0, 1, 16], [⟨3, .ok, 1, 0⟩]) ∧
    out (exec .reverse { acting (.reverse 8) with ms := { console.ms with fault := imageOfStops [8] } }) (fun t =>
      (t.ru.ri, refusals t, inHand t)) =
      some (imageOfStops [0, 1, 8, 16], [(3, .disabled)],
        some ⟨.reversed, .consoleProcessor, 5, 0xFF, 8, 0xFFFF, 0⟩) := by
  decide +kernel

theorem test_stopSet :
    out (exec .stopSet (acting (.stopSet 23 true))) (fun t => (t.ru.ri, results t, inHand t)) =
      some (imageOfStops [0, 1, 8, 16, 23], [⟨3, .ok, 0, 0⟩],
        some ⟨.reversed, .consoleProcessor, 5, 0xFF, 23, 1, 0⟩) := by
  decide +kernel

theorem witness_ReverseAndStopSetTaken :
    (acting (.reverse 383)).nextAction = some ⟨.reverse 383, .consoleProcessor, some 3⟩ ∧
    (acting (.stopSet 0 true)).nextAction = some ⟨.stopSet 0 true, .consoleProcessor, some 3⟩ ∧ 383 < 384 ∧
    ({ acting (.reverse 383) with ms := { console.ms with fault := BitVec.allOnes 384 } } : State).isHeld 383 = true ∧
    (acting (.reverse 383)).isHeld 383 = false := ⟨rfl, rfl, by decide, by decide +kernel, by decide +kernel⟩

/-- R47 and 03, Example: the read of slot G3 of level 5 starts at 0x028CA8. -/
theorem test_recall :
    out (exec .recall (acting (.recall 5 3))) (fun t => (t.engineState, t.port.ce.queue.drop 2)) =
      some (.reading, readAccesses 0x028CA8 56) := by decide +kernel

/-- R51, R52: a piston's CAPTURE with capture enable off is DISABLED; any other reads the lock byte of its level. -/
theorem test_capture :
    out (exec .capture { acting (.capture 5 3) with ce := { queue := [⟨.capture 5 3, .thumb, none⟩] } }) inHand =
      some (some ⟨.captureRefused, .thumb, 5, 3, 8, 0, 0⟩) ∧
    out (exec .capture (acting (.capture 5 3))) (fun t => t.port.ce.queue.drop 2) = some [.read 0x019005] := by
  decide +kernel

theorem witness_RecallAndCaptureTaken :
    (acting (.recall 63 127)).nextAction = some ⟨.recall 63 127, .consoleProcessor, some 3⟩ ∧
    (acting (.capture 0 0)).nextAction = some ⟨.capture 0 0, .consoleProcessor, some 3⟩ ∧
    ({ console with ce := { queue := [⟨.capture 5 3, .thumb, none⟩] } } : State).nextAction =
      some ⟨.capture 5 3, .thumb, none⟩ ∧
    ({ console with ce := { queue := [⟨.capture 5 3, .thumb, none⟩] } } : State).ce.captureEnable = false :=
  ⟨rfl, rfl, rfl, rfl⟩

/-- 03, Example: the press of G3. -/
theorem test_recallSlotReadCompletion :
    out (exec .recallSlotReadCompletion (working (.recallRead ⟨.recall 5 3, .thumb, none⟩ 5 3) slotG3)) (fun t =>
      (t.ru.ri, t.ce.undo, inHand t)) =
      some (imageOfStops [0, 1, 9, 10, 17], [imageOfStops [0, 1, 8, 16]], some ⟨.recalled, .thumb, 5, 3, 5, 6, 0⟩) := by
  decide +kernel

/-- 03, Example: the press of division 2, piston 4 goes on to slot 52. -/
theorem test_recall_follow :
    out (exec .recallSlotReadCompletion { working (.recallRead ⟨.recall 5 72, .thumb, none⟩ 5 72) slotD2 with
        ru := { console.ru with ri := imageOfStops [0, 1, 9, 10, 17] }, cs :=
          { ci := imageOfStops [0, 1, 9, 10, 17] } }) (fun t =>
      (t.ru.ri, t.ce.job, t.port.ce.queue.drop 1, inHand t)) =
      some (imageOfStops [0, 1, 9, 10, 18, 19, 20], some (.followRead ⟨.recall 5 72, .thumb, none⟩ 5 0 52 4),
        readAccesses 0x029760 56, some ⟨.recalled, .thumb, 5, 72, 4, 4, 0⟩) := by decide +kernel

theorem witness_RecallSlotJudged :
    (working (.recallRead ⟨.recall 5 3, .thumb, none⟩ 5 3) slotG3).ce.job =
      some (.recallRead ⟨.recall 5 3, .thumb, none⟩ 5 3) ∧
    judgeSlot ((finishRead .ce (working (.recallRead ⟨.recall 5 3, .thumb, none⟩ 5 3) slotG3)).readBytes .ce) =
      .sound 6 (imageOfStops [2, 3, 9, 10, 17]) ∧
    judgeSlot (slotOf 0xC2 6 0x6E 0x60 0x0C 0x06 0x02) = .empty ∧
      judgeSlot (slotOf 0xC3 6 0x6F 0x60 0x0C 0x06 0x02) = .corrupt ∧
    (72 - 48) / 10 < theDesc.header.divisions ∧ (theDesc.division 2).follow = some 0 ∧
      (theDesc.division 0).pistons = 6 ∧
    ((74 - 48) % 10 = 6) := by decide +kernel

/-- 03, Example: the follow, with the moves of both in a request's result. -/
theorem test_followSlotReadCompletion :
    out (exec .followSlotReadCompletion { working (.followRead ⟨.recall 5 72, .consoleProcessor, some 9⟩ 5 0 52 4) slotD0 with
        ru := { console.ru with ri := imageOfStops [0, 1, 9, 10, 18, 19, 20] } }) (fun t =>
      (t.ru.ri, results t, inHand t)) =
      some (imageOfStops [2, 4, 9, 10, 18, 19, 20], [⟨9, .ok, 8, 0⟩], some ⟨.recalled, .follow, 5, 52, 4, 1, 0⟩) := by
  decide +kernel

theorem witness_FollowApplied :
    (working (.followRead ⟨.recall 5 72, .thumb, none⟩ 5 0 52 4) slotD0).ce.job =
      some (.followRead ⟨.recall 5 72, .thumb, none⟩ 5 0 52 4) ∧
    judgeSlot slotD0 = .sound 1 (imageOfStops [2, 4, 12]) ∧ judgeSlot (List.replicate 56 0) = .empty ∧
    judgeSlot (0xC3 :: List.replicate 55 0) = .corrupt := by decide +kernel

/-- R43, R52: any lock byte but 0 refuses LOCKED. R51: the scope is the one of the taking, 6 here, whatever the capture
scope is by now (0xFF). -/
theorem test_lockByteReadCompletion :
    out (exec .lockByteReadCompletion (working (.lockRead ⟨.capture 5 3, .thumb, none⟩ 5 3 6) [2])) (fun t =>
      (inHand t, t.ce.job)) =
      some (some ⟨.captureRefused, .thumb, 5, 3, 3, 0, 0⟩, none) ∧
    out (exec .lockByteReadCompletion (working (.lockRead ⟨.capture 5 3, .thumb, none⟩ 5 3 6) [0])) (fun t =>
      (t.ce.job, t.port.ce.queue.getLast?, t.port.ce.queue[53]?)) =
      some (some (.slotWrite ⟨.capture 5 3, .thumb, none⟩ 5 3 6 (checkWord 6 (imageOfStops [0, 1, 8, 16]))),
        some (.write .slot 0x028CA8 0xC3), some (.write .slot 0x028CA9 6)) := by decide +kernel

/-- R41, R52: the capture ends: CAPTURED with the scope and the check word. -/
theorem test_slotWriteCompletion :
    out (exec .slotWriteCompletion (working (.slotWrite ⟨.capture 5 3, .consoleProcessor,
      some 2⟩ 5 3 6 0x606E) [])) (fun t =>
      (results t, inHand t)) =
        some ([⟨2, .ok, 0x606E, 0⟩], some ⟨.captured, .consoleProcessor, 5, 3, 6, 0x606E, 0⟩) := by
  decide +kernel

/-- The console with an engine job whose slot accesses wait, none made yet. -/
def slotting (j : EngineJob) (a : Nat) (scope : Byte) : State := { working j [] with
  port := { ce := ⟨slotAccesses a scope 1000 (imageOfStops [0, 1, 8, 16]), []⟩ } }

theorem beingWritten (j : EngineJob) (a : Nat) (scope : Byte)
    (h : ((slotAccesses a scope 1000 (imageOfStops [0, 1, 8, 16])).all (Access.isFor .slot)) = true)
    (others : ∀ k, ¬ (slotting j a scope).port.othersMayWrite .ce k) :
    SlotBeingWritten (slotting j a scope) a scope 1000 (imageOfStops [0, 1, 8, 16]) := by
  refine ⟨[], slotAccesses a scope 1000 (imageOfStops [0, 1, 8, 16]), rfl, List.filter_eq_self.mpr (fun x hx => List.all_eq_true.mp h x hx), by simp,
    fun k _ _ => ⟨others k, fun x hx hn => ?_⟩⟩
  have := List.all_eq_true.mp h x hx
  rw [hn] at this
  cases this

/-- The slot of level 63, piston 127, the last of the slot area, in mid-write. -/
theorem witness_SlotBeingWritten :
    SlotBeingWritten (slotting (.slotWrite ⟨.capture 63 127, .thumb, none⟩ 63 127 0x80 0) 0x08FFC8 0x80) 0x08FFC8 0x80
      1000 (imageOfStops [0, 1, 8, 16]) ∧
    SlotBeingWritten (slotting (.tuttiWrite ⟨.tuttiCapture, .thumb, none⟩ (imageOfStops [0, 1, 8, 16]) 0) 0x019100 0xFF)
      0x019100 0xFF 1000 (imageOfStops [0, 1, 8, 16]) :=
  ⟨beingWritten _ _ _ (by decide +kernel) (fun _ => nobody_else _ _ _ (by decide +kernel)),
    beingWritten _ _ _ (by decide +kernel) (fun _ => nobody_else _ _ _ (by decide +kernel))⟩

/-- R40, R41: the write whose last access is made here, its byte 0, leaves the slot sound. -/
theorem test_slot_sound_at_end :
    out (exec .slotWriteCompletion { slotting (.slotWrite ⟨.capture 5 3, .thumb, none⟩ 5 3 6 0) 0x028CA8 6 with
      port := { ce := ⟨slotAccesses 0x028CA8 6 0x00017011 (imageOfStops [2, 3, 9, 10, 17]), []⟩ } }) (fun t =>
      judgeSlot (t.mem.readBytes 0x028CA8 56)) = some (.sound 6 (imageOfStops [2, 3, 9, 10, 17])) := by decide +kernel

theorem witness_CaptureWritesSlot :
    (working (.lockRead ⟨.capture 63 127, .thumb, none⟩ 63 127 0x80) [0]).ce.job =
      some (.lockRead ⟨.capture 63 127, .thumb, none⟩ 63 127 0x80) ∧
    natLE ((finishRead .ce (working (.lockRead ⟨.capture 63 127, .thumb, none⟩ 63 127 0x80) [0])).readBytes .ce) = 0 ∧
    natLE ((finishRead .ce (working (.lockRead ⟨.capture 5 47, .thumb, none⟩ 5 47 0) [1])).readBytes .ce) ≠ 0 ∧
    (∀ n, n < 400 → (imageOfStops [0, 1, 8, 16]).getLsbD n =
      (console.ru.ri.getLsbD n && decide (n < console.desc.header.stops))) ∧
    (working (.slotWrite ⟨.capture 5 3, .thumb, none⟩ 5 3 6 0x606E) []).ce.job =
      some (.slotWrite ⟨.capture 5 3, .thumb, none⟩ 5 3 6 0x606E) := by decide +kernel

theorem witness_SlotRoundTrip : Memory.wf ([(0x028CA8, 0xC3)] : Memory) = true ∧ slotG3.length = 56 := by decide

/-- R54: TUTTI with state on re-reads the tutti slot; a toggle while it is on turns it off at one event. -/
theorem test_tutti :
    out (exec .tutti (acting (.tutti .on))) (fun t => t.port.ce.queue.drop 2) = some (readAccesses 0x019100 56) ∧
    out (exec .tutti { acting (.tutti .toggle) with ru := { console.ru with tutti := true } }) (fun t =>
      (t.ru.tutti, results t, inHand t)) =
      some (false, [⟨3, .ok, 0, 0⟩], some ⟨.tutti, .consoleProcessor, 5, 0xFF, 0, 0, 0⟩) := by decide +kernel

/-- R54: a sound tutti slot sounds; stop 4 is in neither RI nor CI and does not move. -/
theorem test_tuttiSlotReadCompletion :
    out (exec .tuttiSlotReadCompletion (working (.tuttiRead ⟨.tutti .on, .thumb, none⟩) slotD0)) (fun t =>
      (t.ru.tutti, t.ru.si, t.ru.ri, t.ms.queue)) =
      some (true, imageOfStops [0, 1, 2, 4, 8, 12, 16], imageOfStops [0, 1, 8, 16], []) := by decide +kernel

/-- R20: the read at the entry to RUNNING gives TI its value and leaves the tutti flag. -/
theorem test_runningTuttiReadCompletion :
    out (exec .runningTuttiReadCompletion (working .runningTuttiRead slotD0)) (fun t =>
      (t.ce.ti, t.ru.tutti, inHand t)) =
      some (imageOfStops [2, 4, 12], false, none) ∧
    out (exec .runningTuttiReadCompletion (working .runningTuttiRead (0xC3 :: List.replicate 55 0))) (fun t =>
      t.ce.ti) = some 0 := by
  decide +kernel

theorem witness_TuttiTaken :
    (acting (.tutti .off)).nextAction = some ⟨.tutti .off, .consoleProcessor, some 3⟩ ∧
    (acting (.tutti .toggle)).nextAction = some ⟨.tutti .toggle, .consoleProcessor, some 3⟩ ∧ console.ru.tutti = false ∧
    (working (.tuttiRead ⟨.tutti .on, .thumb, none⟩) slotD0).ce.job = some (.tuttiRead ⟨.tutti .on, .thumb, none⟩) ∧
    (working .runningTuttiRead slotD0).ce.job = some .runningTuttiRead ∧
    judgeSlot ((finishRead .ce (working .runningTuttiRead slotD0)).readBytes .ce) =
      .sound 1 (imageOfStops [2, 4, 12]) :=
  ⟨rfl, rfl, rfl, rfl, rfl, by decide +kernel⟩

/-- R55: TUTTI_CAPTURE writes the tutti slot with scope 0xFF. -/
theorem test_tuttiCapture :
    out (exec .tuttiCapture (acting .tuttiCapture)) (fun t => (t.engineState, t.port.ce.queue.getLast?)) =
      some (.writing, some (.write .slot 0x019100 0xC3)) ∧
    out (exec .tuttiCapture { acting .tuttiCapture with
        dl := { console.dl with copy := { theDesc with header := { theDesc.header with tuttiLock := true } } } }) refusals =
      some [(3, .locked)] := by decide +kernel

theorem test_tuttiCaptureWriteCompletion :
    out (exec .tuttiCaptureWriteCompletion (working (.tuttiWrite ⟨.tuttiCapture, .thumb,
      none⟩ (imageOfStops [4]) 0x5B69) []))
      (fun t => (t.ce.ti, t.ru.tutti, t.ru.si, inHand t)) =
      some (imageOfStops [4], false, imageOfStops [0, 1, 8, 16],
        some ⟨.captured, .thumb, 5, 0xFF, 0xFF, 0x5B69, 0⟩) := by
  decide +kernel

theorem witness_TuttiCaptureTaken :
    (acting .tuttiCapture).nextAction = some ⟨.tuttiCapture, .consoleProcessor, some 3⟩ ∧
    (False ↔ (acting .tuttiCapture).ce.captureEnable = false ∧
      (Origin.consoleProcessor = .thumb ∨ Origin.consoleProcessor = .toe)) ∧
    ({ console with ce := { queue := [⟨.tuttiCapture, .toe, none⟩] } } : State).nextAction =
      some ⟨.tuttiCapture, .toe, none⟩ ∧
    (True ↔ ({ console with ce := { queue := [⟨.tuttiCapture, .toe, none⟩] } } : State).ce.captureEnable = false ∧
      (Origin.toe = .thumb ∨ Origin.toe = .toe)) ∧
    console.desc.header.tuttiLock = false ∧
    (working (.tuttiWrite ⟨.tuttiCapture, .thumb, none⟩ 16 0x5B69) []).ce.job =
      some (.tuttiWrite ⟨.tuttiCapture, .thumb, none⟩ 16 0x5B69) := by
  decide +kernel

/-! ### Requests -/

/-- The same with the engine in READING. -/
def handingBusy (k : RequestKind) (a0 a1 : Nat) : State := { handing k a0 a1 with
  ce := { console.ce with job := some .runningTuttiRead } }

/-- R142, R44, R45: the record joins the queue with the cell; an IDLE engine takes it at its arrival. -/
theorem test_recallRequest :
    out (exec .recallRequest (handing .recall 5 3)) (fun t => (t.ce.queue, t.ce.job, t.rs.sweep)) =
      some ([], some (.recallRead ⟨.recall 5 3, .consoleProcessor, some 3⟩ 5 3), .stateRead 4) ∧
    out (exec .recallRequest (handingBusy .recall 5 3)) (fun t => (t.ce.queue, t.rs.sweep)) =
      some ([⟨.recall 5 3, .consoleProcessor, some 3⟩], .stateRead 4) := ⟨by decide +kernel, by decide +kernel⟩

theorem test_captureRequest :
    out (exec .captureRequest (handingBusy .capture 63 127)) (fun t => t.ce.queue) =
      some [⟨.capture 63 127, .consoleProcessor, some 3⟩] := by decide +kernel

/-- 09, Example: a record dropped at a full queue is DONE, FULL, 0. -/
theorem test_cancelRequest :
    out (exec .cancelRequest { handing .cancel 0 0 with
      ce := { console.ce with
        queue := List.replicate 8 ⟨.undo, .thumb, none⟩, job := some (.recallRead ⟨.recall 5 3, .thumb, none⟩ 5 3) } })
      (fun t => (t.ce.queue.length, results t, inHand t)) =
      some (8, [⟨3, .full, 0, 0⟩], some ⟨.actionOverrun, .consoleProcessor, 0xFF, 0xFF, 3, 0, 0⟩) := by decide +kernel

/-- R45: at the end of an action the engine takes the queue: an UNDO, which ends at once, and then a RECALL. -/
theorem test_take_at_end :
    out (exec .recallSlotReadCompletion { working (.recallRead ⟨.recall 5 3, .thumb, none⟩ 5 3) (List.replicate 56 0) with
      ce := { console.ce with
        job := some (.recallRead ⟨.recall 5 3, .thumb, none⟩ 5 3)
        queue := [⟨.undo, .thumb, some 7⟩, ⟨.recall 5 4, .toe, none⟩] } }) (fun t => (t.ce.queue, t.ce.job, refusals t)) =
      some ([], some (.recallRead ⟨.recall 5 4, .toe, none⟩ 5 4), [(7, .empty)]) := by decide +kernel

theorem test_tuttiRequest :
    out (exec .tuttiRequest (handing .tutti 2 0)) (fun t => t.ce.job) =
      some (some (.tuttiRead ⟨.tutti .toggle, .consoleProcessor, some 3⟩)) := by decide +kernel

theorem test_undoRequest :
    out (exec .undoRequest (handing .undo 0 0)) (fun t => (t.ce.queue, refusals t)) = some ([], [(3, .empty)]) := by
  decide +kernel

theorem test_stopSetRequest :
    out (exec .stopSetRequest (handing .stopSet 1 23)) (fun t => (t.ru.ri.getLsbD 23, results t)) =
      some (true, [⟨3, .ok, 0, 0⟩]) := by decide +kernel

/-- R62: a Sequencer that is IDLE takes the head at the arrival; one at work has it wait. -/
theorem test_seqSetRequest :
    out (exec .seqSetRequest (handing .seqSet 0 1023)) (fun t => (t.sq.list, t.sq.job, t.port.sq.queue.drop 2)) =
      some ([], some (.lengthRead ⟨.set 1023, .consoleProcessor, some 3⟩), readAccesses 0x013000 4) ∧
    out (exec .seqSetRequest { handing .seqSet 0 1023 with sq := { job := some (.stepRead ⟨.next, .toe, none⟩ 4) } })
      (fun t => t.sq.list) = some [⟨.set 1023, .consoleProcessor, some 3⟩] := ⟨by decide +kernel, by decide +kernel⟩

/-- R62: a fifth step request is dropped FULL and journaled with the refused mark. -/
theorem test_seqStep :
    out (exec .seqStep { handing .seqStep 1 0 with sq := {
        list := List.replicate 4 ⟨.next, .toe, none⟩, position := some 7, job := some (.stepRead ⟨.next, .toe, none⟩ 8) } })
      (fun t => (t.sq.list.length, refusals t, inHand t)) =
      some (4, [(3, .full)], some ⟨.sequence, .consoleProcessor, 5, 0xFF, 7, 0xFFFF, 0⟩) := by decide +kernel

theorem witness_RequestsJoinQueues :
    ((handing .recall 63 127).rs.sweep = .accepting 3 ⟨.recall, 63, 127⟩ ∧
      (Instr.cancelRequest, RequestKind.cancel, ActionKind.cancel) ∈
        [(Instr.recallRequest, RequestKind.recall, ActionKind.recall 0 0),
          (.captureRequest, .capture, .capture 0 0), (.cancelRequest, .cancel, .cancel), (.undoRequest, .undo, .undo)] ∧
      (Instr.seqStep, RequestKind.seqStep, StepKind.next) ∈ [(Instr.seqSetRequest, RequestKind.seqSet, StepKind.set 0),
        (.seqStep, .seqStep, if 0 = 0 then StepKind.next else StepKind.prev)]) ∧
    (List.replicate 7 (⟨.undo, .thumb, none⟩ : Action)).length < 8 ∧
    ((handingBusy .recall 63 127).ce.job ≠ none ∧ 8 ≤ (List.replicate 8 (⟨.undo, .thumb, none⟩ : Action)).length) ∧
    ((fetching (.lengthRead ⟨.next, .toe, none⟩) []).sq.job ≠ none ∧
      (List.replicate 3 (⟨.next, .toe, none⟩ : StepRequest)).length < 4 ∧
      4 ≤ (List.replicate 4 (⟨.next, .toe, none⟩ : StepRequest)).length) ∧
    ((handing .seqSet 0 0xFFFF).part = .running ∧ (handing .seqSet 0 0xFFFF).sq.job = none ∧
      (handing .seqSet 0 0xFFFF).sq.list = [] ∧ StepKind.set 0xFFFE ≠ .set 0xFFFF) := by decide

/-- R42: SELECT_LEVEL journals LEVEL with the former level. -/
theorem test_selectLevel :
    out (exec .selectLevel (handing .selectLevel 63 0)) (fun t => (t.ce.level, results t, inHand t)) =
      some (63, [⟨3, .ok, 63, 0⟩], some ⟨.level, .consoleProcessor, 63, 0xFF, 5, 0, 0⟩) ∧
    out (exec .selectLevel (handing .selectLevel 64 0)) (fun t => (t.ce.level, results t)) =
      some (5, [⟨3, .range, 0, 0⟩]) := by
  decide +kernel

/-- R43: the lock byte's write is started; a value of 2 is RANGE. -/
theorem test_lockLevel :
    out (exec .lockLevel (handing .lockLevel 63 1)) (fun t => (t.port.ce.queue, t.ce.locks)) =
      some ([.write .lock 0x01903F 1], [(3, 1)]) ∧
    out (exec .lockLevel (handing .lockLevel 63 2)) results = some [⟨3, .range, 0, 0⟩] := by decide +kernel

/-- R43: beside a capture whose slot is being written, the lock byte's write is the engine's next, but for the rest of the
field that is being written: the second byte of the check word, or the last two of the image (R157). -/
theorem test_lockLevel_beside_capture :
    out (exec .lockLevel { handing .lockLevel 63 1 with
      port := { ce := ⟨writeAccesses .slot 0x028CAB [0x60] ++ [.write .slot 0x028CA8 0xC3], []⟩ } }) (fun t => t.port.ce.queue) =
      some [.write .slot 0x028CAB 0x60, .write .lock 0x01903F 1, .write .slot 0x028CA8 0xC3] ∧
    out (exec .lockLevel { handing .lockLevel 63 1 with
      port := { ce := ⟨writeAccesses .slot 0x028CDE [4, 5] ++ [.write .slot 0x028CAC 7], []⟩ } }) (fun t =>
        t.port.ce.queue) =
      some [.write .slot 0x028CDE 4, .write .slot 0x028CDF 5, .write .lock 0x01903F 1, .write .slot 0x028CAC 7] :=
  ⟨by decide +kernel, by decide +kernel⟩

theorem test_lockLevelWriteCompletion :
    out (exec .lockLevelWriteCompletion { console with
      ce := { console.ce with locks := [(3, 1)] }, port := { ce := ⟨[.write .lock 0x01903F 1], []⟩ } })
      (fun t => (t.mem.read 0x01903F, results t, t.ce.locks)) = some (1, [⟨3, .ok, 1, 0⟩], []) := by decide +kernel

/-- R51: both values are written to their mirrors, also where only one changes. -/
theorem test_captureSetup :
    out (exec .captureSetup (handing .captureSetup 1 0x81)) (fun t =>
      (t.ce.captureEnable, t.ce.captureScope, results t, t.port.ce.queue)) =
      some (true, 0x81, [⟨3, .ok, 0x81, 0⟩], [.write .mirror 0x0101A1 1, .write .mirror 0x0101A2 0x81]) ∧
    out (exec .captureSetup (handing .captureSetup 2 0x81)) (fun t => (t.ce.captureEnable, results t)) =
      some (true, [⟨3, .range, 0, 0⟩]) :=
  ⟨by decide +kernel, by decide +kernel⟩

theorem witness_LevelsAndCaptureSetup :
    ((handing .selectLevel 63 0).rs.sweep = .accepting 3 ⟨.selectLevel, 63, 0⟩ ∧ 63 < console.desc.header.levels ∧
      console.desc.header.levels ≤ 64) ∧
    (handing .lockLevel 63 1).rs.sweep = .accepting 3 ⟨.lockLevel, 63, 1⟩ ∧
    (handing .captureSetup 1 0).rs.sweep = .accepting 3 ⟨.captureSetup, 1, 0⟩ ∧
    ({ console with ce := { locks := [(3, 1)] } } : State).ce.locks = (3, 1) :: [] ∧
    (let s : State := { console with
       port := { ce := ⟨[.write .slot 0x028CA8 0xC3] ++ .write .lock 0x01903F 1 :: [.write .lock 0x019000 0], []⟩ } }
     s.mem.wf = true ∧ (∀ y ∈ [Access.write .slot 0x028CA8 0xC3], Access.isFor .lock y = false) ∧
       (([Access.write .lock 0x019000 0]).filter (Access.isFor .lock)).length = [(4, 0)].length ∧
       ¬ s.port.othersMayWrite .ce 0x01903F) :=
  ⟨by decide, by decide, by decide, rfl, by decide, by decide, by decide, nobody_else _ _ _ (by decide +kernel)⟩

/-! ### The Sequencer -/

/-- R63, R67: NEXT reads the length word; SEQ_SET to NONE ends at its event. -/
theorem test_next :
    out (exec .next (stepping .next)) (fun t => (t.sq.list, t.port.sq.queue.drop 1)) =
      some ([], readAccesses 0x013000 4) := by decide +kernel

theorem test_prev :
    out (exec .prev (stepping .prev)) (fun t => t.sq.job) = some (some (.lengthRead ⟨.prev, .toe, some 4⟩)) :=
      by decide +kernel

theorem test_seqSet :
    out (exec .seqSet { stepping (.set 0xFFFF) with sq := { list := [⟨.set 0xFFFF, .consoleProcessor, some 4⟩], position := some 3 } })
      (fun t => (t.sq.position, results t)) = some (none, [⟨4, .ok, 0xFFFF, 0⟩]) := by decide +kernel

/-- 04, Example, event 7: length 3, position 3, PREV: target 2. -/
theorem test_lengthWordReadCompletion :
    out (exec .lengthWordReadCompletion { fetching (.lengthRead ⟨.prev, .toe, none⟩) [3, 0, 0, 0] with
      sq := { position := some 3, job := some (.lengthRead ⟨.prev, .toe, none⟩) } }) (fun t =>
        (t.sq.job, t.port.sq.queue)) =
      some (some (.stepRead ⟨.prev, .toe, none⟩ 2), readAccesses 0x01300C 4) := by decide +kernel

/-- R63, R64: targets at the ends of the list. -/
theorem test_targets :
    nextTarget 4 none = some 0 ∧ nextTarget 4 (some 3) = some 3 ∧ nextTarget 3 (some 3) = some 2 ∧
      nextTarget 0 (some 3) = none ∧
    prevTarget 4 none = some 0 ∧ prevTarget 4 (some 0) = some 0 ∧ prevTarget 3 (some 5) = some 2 := by decide

/-- 04, Example, events 1 and 5. -/
theorem test_stepReadCompletion :
    out (exec .stepReadCompletion (fetching (.stepRead ⟨.next, .toe, none⟩ 0) [2, 0, 101, 0])) (fun t =>
      (t.sq.position, t.ce.level, t.ce.job, inHand t)) =
      some (some 0, 2, some (.recallRead ⟨.recall 2 0, .sequencer, none⟩ 2 0), some ⟨.sequence, .toe, 2, 0, 0, 101, 0⟩) ∧
    out (exec .stepReadCompletion (fetching (.stepRead ⟨.next, .toe, none⟩ 3) [200, 5, 45, 1])) (fun t =>
      (t.sq.position, t.ce.level, t.ce.queue, inHand t)) =
      some (some 3, 5, [], some ⟨.sequence, .toe, 200, 5, 3, 301, 0⟩) :=
  ⟨by decide +kernel, by decide +kernel⟩

theorem witness_StepsTakenAndTargets :
    (stepping .next).nextStep = some ⟨.next, .toe, some 4⟩ ∧
      (stepping (.set 0xFFFF)).nextStep = some ⟨.set 0xFFFF, .toe, some 4⟩ ∧
    (fetching (.lengthRead ⟨.next, .toe, none⟩) [4, 0, 0, 0]).sq.job = some (.lengthRead ⟨.next, .toe, none⟩) ∧
    min (natLE [0, 0, 0, 0]) 1024 = 0 ∧ min (natLE [1, 4, 0, 0]) 1024 = 1024 ∧ console.sq.position = none ∧
    ({ console with sq := { position := some 1023 } } : State).sq.position = some 1023 := by decide

/-- R67: SEQ_SET to the position already held is a success, and writes the mirror. -/
theorem test_seqSet_held :
    out (exec .lengthWordReadCompletion { fetching (.lengthRead ⟨.set 2, .consoleProcessor, some 4⟩) [4, 0, 0, 0] with
      sq := { position := some 2, job := some (.lengthRead ⟨.set 2, .consoleProcessor, some 4⟩) } }) (fun t =>
        (t.sq.position, results t, t.port.sq.queue)) =
      some (some 2, [⟨4, .ok, 2, 0⟩], writeAccesses .mirror 0x0101B0 [2, 0]) := by decide +kernel

theorem witness_StepReadTaken :
    (fetching (.stepRead ⟨.next, .toe, none⟩ 0) [63, 127, 101, 0]).sq.job = some (.stepRead ⟨.next, .toe, none⟩ 0) ∧
    byteAt ((finishRead .sq (fetching (.stepRead ⟨.next, .toe, none⟩ 0) [63, 127, 101, 0])).readBytes .sq) 0 = 63 ∧
    63 < console.desc.header.levels ∧ byteAt [63, 127, 101, 0] 1 < 128 ∧ console.ce.queue.length < 8 ∧
    (console.desc.header.levels ≤ byteAt [64, 127, 101, 0] 0 ∧ 128 ≤ byteAt [63, 128, 101, 0] 1) ∧
    8 ≤ (List.replicate 8 (⟨.undo, .thumb, none⟩ : Action)).length :=
  ⟨by decide +kernel, by decide +kernel, by decide, by decide, by decide, by decide, by decide⟩

/-- R62: at the end of a step request the Sequencer takes the next. -/
theorem test_step_at_end :
    out (exec .stepReadCompletion { fetching (.stepRead ⟨.next, .toe, none⟩ 3) [200, 5, 45, 1] with
      sq := { job := some (.stepRead ⟨.next, .toe, none⟩ 3), list := [⟨.set 0xFFFF, .thumb, some 5⟩, ⟨.prev, .thumb, none⟩] } })
      (fun t => (t.sq.position, t.sq.list, t.sq.job, results t)) =
      some (none, [], some (.lengthRead ⟨.prev, .thumb, none⟩), [⟨5, .ok, 0xFFFF, 0⟩]) := by decide +kernel

/-! ### The Crescendo Unit -/

/-- R78, R79: program 4 is RANGE; program 3 starts its read. -/
theorem test_crescProgram :
    out (exec .crescProgram (handing .crescProgram 4 0)) results = some [⟨3, .range, 0, 0⟩] ∧
    out (exec .crescProgram (handing .crescProgram 3 0)) (fun t => (t.cu.loading, t.port.cu.queue.take 2)) =
      some (some ⟨3, 3, {}⟩, [.read 0x018000, .read 0x018001]) := by decide +kernel

/-- The console with a program load whose next read has taken these bytes, the shoe at Q = 497. -/
def switching (r : ProgramRead) (bytes : List Byte) : State := { console with
  cu := { console.cu with signal := .live 31997, q := 497, stage := 9, loading := some ⟨1, 3, r⟩ }, port :=
    { cu := ⟨[], bytes⟩ } }

/-- R79: the switch stages without hysteresis: with one stage r(497) = 0, for b(1) = 512. A stop number of N is RANGE in
stage record 1. -/
theorem test_programReadCompletion :
    out (exec .programReadCompletion (switching ⟨.stopNumber 1, 4, 1, [], [5]⟩ [23, 0])) (fun t =>
      (t.cu.program, t.cu.stage, t.cu.images, results t)) =
      some (some 1, 0, [0, imageOfStops [5, 23]], [⟨3, .ok, 0, 0⟩]) ∧
    out (exec .programReadCompletion (switching ⟨.stopNumber 1, 4, 1, [], [5]⟩ [24, 0])) (fun t =>
      (t.cu.program, t.cu.stage, results t)) =
      some (some 0, 9, [⟨3, .range, 1, 0⟩]) :=
  ⟨by decide +kernel, by decide +kernel⟩

/-- R81: v = floor(31997 / 16) = 1999 as the low end; it must leave 256 below hi. -/
theorem test_crescCalibrate :
    out (exec .crescCalibrate { handing .crescCalibrate 0 0 with cu := { console.cu with signal := .held 31997 } }) (fun t =>
      (t.cu.lo, t.cu.q, results t, inHand t)) =
      some (1999, 0, [⟨3, .ok, 1999, 0⟩], some ⟨.calibrated, .consoleProcessor, 5, 0xFF, 0, 1999, 0⟩) ∧
    out (exec .crescCalibrate (handing .crescCalibrate 1 0)) results = some [⟨3, .noSignal, 0, 0⟩] :=
  ⟨by decide +kernel, by decide +kernel⟩

theorem witness_FilterStep : 4 ≤ 4 ∧ 4095 ≤ 4095 ∧ 65520 ≤ 65520 := by decide

theorem witness_StageZones : 1 ≤ 60 ∧ 60 ≤ 60 ∧ effectiveHysteresis 32 60 = 8 := by decide +kernel

theorem witness_ShoeAndCalibration :
    0 + 256 ≤ 256 ∧ console.cu.signal = .none ∧
    (handing .crescCalibrate 1 0).rs.sweep = .accepting 3 ⟨.crescCalibrate, 1, 0⟩ ∧
    ({ handing .crescCalibrate 0 0 with cu := { console.cu with signal := .held 56704 } } : State).cu.signal =
      .held 56704 ∧
    56704 / 16 + 256 ≤ console.cu.hi ∧ console.cu.hi < 56720 / 16 + 256 ∧ console.cu.lo + 256 ≤ 8896 / 16 ∧
    8895 / 16 < console.cu.lo + 256 ∧
    (shoeSample true 4095 console).cu.signal = .live 65520 ∧ shoeSample true 4096 console = console := by decide +kernel

theorem witness_ProgramLoadChecked :
    (handing .crescProgram 3 0).rs.sweep = .accepting 3 ⟨.crescProgram, 3, 0⟩ ∧ console.cu.loading = none ∧
    (switching {} [61, 0]).cu.loading ≠ none ∧ console.cu.mirror.full = false ∧
    (switching {} [61, 0]).cu.loading = some ⟨1, 3, {}⟩ ∧ ProgramRead.take 24 {} (natLE [61, 0]) = .failed 0 ∧
    ProgramRead.take 24 {} (natLE [1, 0]) = .more { field := .stopCount, offset := 2, total := 1 } ∧
    ProgramRead.take 24 ⟨.stopNumber 1, 4, 1, [], [5]⟩ (natLE [23, 0]) = .whole [[5, 23]] ∧
    (ProgramRead.field ⟨.stopCount, 2, 1, [], []⟩ = .stopCount) ∧
      ProgramRead.field ⟨.stopNumber 32, 4, 1, [], []⟩ = .stopNumber 32 := by
  decide +kernel

/-! ### Contacts and presses -/

/-- R87: depth 2: one sample that agrees in between starts the run anew. -/
theorem test_debounce :
    debounceRun (.tablet 23 2) { armed := true } [true, false, true] = ⟨false, 1, true⟩ ∧
    debounceRun (.tablet 23 2) { armed := true } [true, true] = ⟨true, 0, false⟩ ∧
    (debounce (.tablet 23 2) ⟨false, 1, true⟩ true).press = true ∧
    (debounce (.tablet 23 2) ⟨false, 1, false⟩ true).press = false ∧
    debounceRun (.tablet 23 2) { closed := true } [false, false] = ⟨false, 0, true⟩ := by decide

theorem witness_DebounceRule :
    1 ≤ (ContactRole.sense 0 8).depth ∧ ({ closed := true, run := 7 } : Contact).run < (ContactRole.sense 0 8).depth ∧
    ({ run := 6 } : Contact).run < (ContactRole.sense 0 8).depth - 1 ∧
    ({ run := 7 } : Contact).run = (ContactRole.sense 0 8).depth - 1 ∧
    ({ run := 0 } : Contact).run = (ContactRole.sense 0 1).depth - 1 ∧ 2 ≤ (ContactRole.tablet 23 2).depth := by decide

/-- Board 1 with its piston contacts armed, the levels of its sense contacts as CI has them, and contact 41 (SET) as
given. -/
def pressable (set : Bool) : State := { console with
  cs := { console.cs with contacts := Vector.replicate 16 (((((Vector.replicate 64 ({} : Contact)).set 40 ⟨false, 0, true⟩).set 41
    ⟨set, 0, !set⟩).set 42 ⟨false, 0, true⟩).set 23 ⟨false, 1, true⟩) } }

/-- 06, Example: G3 with SET held is a CAPTURE of the current level, without it a RECALL; a tablet is a REVERSE. -/
theorem test_presses :
    (contactSample 0 (1 <<< 40 ||| 1 <<< 41) (pressable true)).ce.job =
      some (.lockRead ⟨.capture 5 3, .thumb, none⟩ 5 3 0xFF) ∧
    (contactSample 0 (1 <<< 40 ||| 1 <<< 41) (pressable false)).ce.job =
      some (.lockRead ⟨.capture 5 3, .thumb, none⟩ 5 3 0xFF) ∧
    (let t := contactSample 0 (1 <<< 40 ||| 1 <<< 23) (pressable false)
     t.ru.ri.getLsbD 23 = true ∧ t.ce.job = some (.recallRead ⟨.recall 5 3, .thumb, none⟩ 5 3)) ∧
    (contactSample 0 (1 <<< 42) (pressable true)).sq.job = some (.lengthRead ⟨.next, .toe, none⟩) := by decide +kernel

/-- Five NEXT pistons on the contacts 40 to 44 of board 1, each armed. -/
def fiveNext : State := { console with
  dl := { console.dl with copy := { theDesc with pistons := (List.range 5).map (fun n => ⟨1, 40 + n, .next, .toe, 1⟩) } }
  cs := { console.cs with contacts := Vector.replicate 16 (Vector.replicate 64 ({ armed := true } : Contact)) } }

/-- R62: of five NEXT presses of one sample the first is taken at its arrival, and the other four wait. -/
theorem test_five_presses :
    (contactSample 0 (31 <<< 40) fiveNext).sq.job = some (.lengthRead ⟨.next, .toe, none⟩) ∧
    (contactSample 0 (31 <<< 40) fiveNext).sq.list = List.replicate 4 ⟨.next, .toe, none⟩ ∧
    inHand (contactSample 0 (31 <<< 40) fiveNext) = none := by decide +kernel

theorem witness_SampleDebouncesContacts :
    let s := pressable false
    (s.desc.role 0 63 = none ∧ s.desc.role 0 23 = some (.tablet 23 2) ∧ s.desc.role 0 9 = some (.sense 9 2)) ∧
    ((debounce (.tablet 23 2) s.cs.contacts[0][23] true).accepted = true ∧
      (debounce (.tablet 23 2) s.cs.contacts[0][23] true).press = true ∧
      (debounce (.tablet 23 2) ⟨false, 1, false⟩ true).accepted = true ∧
      (debounce (.tablet 23 2) ⟨false, 1, false⟩ true).press = false) ∧
    (∀ j : Fin 64, j ≠ 23 → ∀ q ∈ s.desc.role 0 j.val,
      (debounce q s.cs.contacts[0][j] ((1#64 <<< 23).getLsbD j.val)).accepted = false) ∧
    (∀ k : Fin 64, ∀ r ∈ s.desc.role 0 k.val, (debounce r s.cs.contacts[0][k] false).accepted = false) ∧
    (debounce (.sense 9 2) ⟨false, 1, false⟩ true).accepted = true := by decide +kernel

theorem witness_PressesDecoded :
    (pressable true).setHeld = true ∧ (pressable false).setHeld = false ∧ (pressable true).ce.queue.length < 8 ∧
    (⟨1, 40, .general 47, .thumb, 1⟩ : PistonRec).function = .general 47 ∧
    (⟨1, 40, .divisional 7 9, .toe, 1⟩ : PistonRec).function = .divisional 7 9 ∧
    (levelUp 64 63 = 0 ∧ levelDown 64 0 = 63) ∧
    ((pressable true).part = .running ∧ (pressable true).ce.job = none ∧ (acting (.recall 5 3)).ce.queue =
      ⟨.recall 5 3, .consoleProcessor, some 3⟩ :: []) ∧
    ((working .runningTuttiRead []).ce.job ≠ none ∧ State.reset.part ≠ .running) ∧
    (8 ≤ (List.replicate 8 (⟨.undo, .thumb, none⟩ : Action)).length ∧
      4 ≤ (List.replicate 4 (⟨.prev, .thumb, none⟩ : StepRequest)).length) ∧
    ((fetching (.lengthRead ⟨.next, .toe, none⟩) []).sq.job ≠ none ∧ console.sq.list = [] ∧
      (stepping .next).part = .running ∧ (stepping .next).sq.job = none ∧
      (stepping .next).sq.list = ⟨.next, .toe, some 4⟩ :: []) :=
  ⟨by decide +kernel, by decide +kernel, by decide, rfl, rfl, by decide, by decide, by decide, by decide, by decide⟩

/-- Two REVERSIBLE pistons of stop 9 on the contacts 40 and 41 of board 1, armed. -/
def twoReverses : State := { console with
  dl := { console.dl with copy := { theDesc with pistons := (List.range 2).map (fun n => ⟨1, 40 + n, .reversible 9, .toe, 1⟩) } }
  cs := { console.cs with contacts := Vector.replicate 16 (Vector.replicate 64 ({ armed := true } : Contact)) } }

/-- R36, R45: two REVERSEs of one stop in one sample change RI and change it back; each change has marked the images. -/
theorem test_each_take_marks :
    (contactSample 0 (3 <<< 40) twoReverses).ru.ri = twoReverses.ru.ri ∧
      (contactSample 0 (3 <<< 40) twoReverses).ru.mirror.stale = true := ⟨by decide +kernel, by decide +kernel⟩

/-- R93: LEVEL_UP on a console of one level stays at level 0, writes the mirror and is journaled. -/
theorem test_level_of_one :
    (let t := pressContact false (.piston ⟨1, 40, .levelUp, .thumb, 1⟩) { console with
       dl := { console.dl with copy := { theDesc with header := { theDesc.header with levels := 1 } } }
       ce := { console.ce with level := 0 } }
     (t.ce.level, t.port.ce.queue, inHand t)) =
      (0, [.write .mirror 0x0101A0 0], some ⟨.level, .thumb, 0, 0xFF, 0, 0, 0⟩) := by decide +kernel

/-! ### The jamb link -/

/-- A frame or reply with its check. -/
def checked (body : List Byte) : List Byte := body ++ bytesBE 2 (frameCheck body).toNat

/-- A POLL reply of board 1: echo 0, contacts 0, 1, 8 and 16 closed, no valid shoe sample. -/
def pollReply : List Byte := checked [1, 0x81, 1, 0, 3, 1, 1, 0, 0, 0, 0, 0, 0, 0, 0, 0]

/-- A CENSUS reply of board 1 as its record has it, last toggle 1, contacts 0 and 2 closed. -/
def censusReply (coils : Byte) : List Byte := checked [1, 0x82, 1, 1, 64, coils, 32, 1, 0, 0, 5, 0, 0, 0, 0, 0, 0, 0]

/-- R121, R164: the reply a board forms to a POLL is the one of `pollReply`. -/
theorem test_board_reply :
    (BoardReply.poll false).bytes 0 ⟨.jamb, 64, 32, 32, true, 0, 0x010103, false, 0⟩ = pollReply ∧
    (BoardReply.census true).bytes 0 ⟨.jamb, 64, 32, 32, true, 0, 5, false, 0⟩ = censusReply 32 := by decide +kernel

/-- R125, R127: ROUND_START at 1007: round 1, the next due at 1014, and the first POLL with the lamps of RI. -/
theorem test_roundStart :
    out (exec .roundStart console) (fun t => (t.clock, t.lc.round, t.lc.due, t.lc.exchange)) =
      some (1007, 1, 1014, .sending 0 (.pollJamb false [] 0)) ∧
    out (exec .roundStart { console with ru := { console.ru with ri := imageOfStops [23] } }) (fun t => t.lc.exchange) =
      some (.sending 0 (.pollJamb false [] 8)) := by decide +kernel

/-- R119, R121: the reply window opens; a board that gets a new toggle starts the commands. -/
theorem test_requestFrameSent :
    out (exec (.requestFrameSent true) { console with lc := { console.lc with exchange := .sending 0 (.pollJamb true [⟨2, 2, true, 40⟩] 8) } })
      (fun t => (t.lc.exchange, t.line[0])) =
      some (.window 0 (.pollJamb true [⟨2, 2, true, 40⟩] 8), ⟨true, 8, 0, [⟨2, 2, true, 40⟩], some (.poll true)⟩) ∧
    out (exec (.requestFrameSent false) { console with lc := { console.lc with exchange := .sending 0 (.pollJamb true [] 8) } })
      (fun t => t.line[0]) = some {} := by decide +kernel

/-- R135: two requests whose exchanges were ended while they were being sent are both sent to their end, in order. -/
theorem test_ended_sends_drain :
    out (exec (.runClear 0) { console with lc := { console.lc with draining := [(0, .census)], exchange := .sending 1 .census } })
      (fun t => (t.lc.draining, t.lc.exchange)) = some ([(0, .census), (1, .census)], .idle) ∧
    out (exec (.requestFrameSent true) { console with lc := { console.lc with draining := [(0, .census), (1, .census)] } })
      (fun t => (t.lc.draining, t.lc.exchange, t.line[0].reply)) =
        some ([(1, .census)], .idle, some (.census false)) := ⟨by decide +kernel, by decide +kernel⟩

/-- A SUSPECT board whose open frame carries stop 2 on. -/
def suspect : BoardLink := { state := .suspect, missRun := 2, openFrame := some ⟨false, [⟨2, 2, true, 40⟩]⟩ }

/-- R106, R128: the acknowledgement starts the pulse of 40 ms, flips the toggle and empties the list. -/
theorem test_replyReceived :
    out (exec (.replyReceived pollReply) { windowOf { suspect with outgoing := [⟨2, 2, true, 40⟩] } (.pollJamb false [] 0) with
        ms := { console.ms with queue := [⟨2, true, .sent, false, false⟩], committed := 12, energised := 1 } })
      (fun t => (t.lc.boards[0], t.ms.queue, t.lc.exchange)) =
      some ({ state := .present, toggle := true }, [⟨2, true, .pulsing 1040, false, false⟩],
        .sending 1 (.pollChest false 0)) := by
  decide +kernel

/-- R122: a CENSUS reply that matches makes an ABSENT board PRESENT, its toggle opposite to the reported one; one with
fewer coils than its record is MISMATCH with reason COUNT. -/
theorem test_census_reply :
    out (exec (.replyReceived (censusReply 32)) (windowOf { state := .absent } .census)) (fun t =>
      (t.lc.boards[0].state, t.lc.boards[0].toggle, t.cs.ci, t.ms.queue.map MotionEntry.stop)) =
      some (.present, false, imageOfStops [0, 2], [2, 1, 8, 16]) ∧
    out (exec (.replyReceived (censusReply 31)) (windowOf { state := .absent } .census)) (fun t =>
      (t.lc.boards[0].state, t.lc.boards[0].reason, inHand t)) =
      some (.mismatch, .count, some ⟨.board, .none, 5, 0xFF, 1, 0x0304, 0⟩) := by
  exact ⟨by decide +kernel, by decide +kernel⟩

/-- R122, R133: a miss makes PRESENT SUSPECT. -/
theorem test_replyTimeout :
    out (exec .replyTimeout (windowOf { state := .present, misses := 255 } (.pollJamb false [] 0))) (fun t =>
      (t.lc.boards[0].state, t.lc.boards[0].missRun, t.lc.boards[0].misses, inHand t)) =
      some (.suspect, 1, 255, some ⟨.board, .none, 5, 0xFF, 1, 0x0102, 0⟩) := by decide +kernel

/-- R133: an increase at 255 leaves the counter and marks the mirrors stale. -/
theorem test_increase_at_255 :
    out (exec .replyTimeout (windowOf { state := .absent, misses := 255 } .census)) (fun t =>
      (t.lc.boards[0].misses, t.lc.mirror.updating)) = some (255, true) ∧
    out (exec .shortReply { windowOf { state := .absent, bads := 255 } .census with
      lc := { (windowOf { state := .absent, bads := 255 } .census).lc with
        mirror := { count := 3, updating := true, shadow := [] } } }) (fun t =>
      (t.lc.boards[0].bads, t.lc.mirror.stale)) = some (255, true) := ⟨by decide +kernel, by decide +kernel⟩

/-- R122, R113: the third failure of a run makes the board ABSENT and its stops unreachable. -/
theorem test_shortReply :
    out (exec .shortReply (windowOf { state := .suspect, missRun := 2 } (.pollJamb false [] 0))) (fun t =>
      (t.lc.boards[0].state, t.lc.boards[0].bads, t.ms.unreachable)) = some (.absent, 1, 0xFFFFFF) := by decide +kernel

/-- The console before a round of this number less one, its boards 1 and 2 in this state. -/
def beforeRound (round : BitVec 4) (b : BoardState) : State := { console with
  lc := { console.lc with boards := Vector.replicate 16 { state := b }, round := round } }

/-- R124: round 16 sends an ABSENT board a CENSUS; round 1 sends it nothing and ends at once. -/
theorem test_sixteenth_round :
    out (exec .roundStart (beforeRound 15 .absent)) (fun t => (t.lc.round, t.lc.exchange)) = some (0, .sending 0 .census) ∧
    out (exec .roundStart (beforeRound 0 .mismatch)) (fun t => (t.lc.round, t.lc.inRound, t.rs.sweep)) =
      some (1, false, .stateRead 0) := ⟨by decide +kernel, by decide +kernel⟩

theorem witness_RoundsAndFrames :
    (console.lc.inRound = false ∧ console.isNextDue console.lc.due = true ∧ console.part = .running ∧
      ¬ console.silent (console.lc.round + 1) 0 ∧ (∀ j : Fin 16, ¬ j < 0)) ∧
    ((∀ i, (beforeRound 0 .absent).silent (0 + 1) i) ∧ ¬ (beforeRound 15 .mismatch).silent (15 + 1) 0) ∧
    (({ console with part := .census, lc := { due := 1007 } } : State).isNextDue 1007 = true ∧
      (console.desc.board 1).kind ≠ .none ∧
      ({ console with part := .census, lc := { due := 1007 } } : State).lc.boards[1].state = .unknown) ∧
    (¬ console.silent console.lc.round 1 ∧ (∀ j, 1 < j → console.silent console.lc.round j) ∧
      ahead console.clock console.lc.due ≠ 0 ∧ ahead (1007 : BitVec 32) console.lc.due = 0) ∧
    (console.lc.draining = [] ∧ ({ console with lc := { console.lc with exchange := .sending 1 .census } } :
        State).lc.exchange = .sending 1 .census ∧
      ({ console with lc := { console.lc with draining := [(15, .census), (0, .census)] } } : State).lc.draining =
        (15, .census) :: [(0, .census)]) := by
  unfold State.silent
  decide +kernel

/-- The console in CENSUS at the end of a round, board 1 in this state, after a hard reset. -/
def census (b : BoardState) : State := { console with
  part := .census, clockZeroed := false
  lc := { console.lc with boards := console.lc.boards.set 0 { state := b }, inRound := true } }

/-- R148, R156: the entry to RUNNING zeroes the clock, journals STARTED with cause HARD and starts round 1. -/
theorem test_entry_to_running :
    (fun t : State => (t.part, t.clock, t.lc.round, t.lc.due, inHand t)) (closeCensusRound (census .present)) =
      (.running, 0, 1, 7, some ⟨.started, .none, 0, 0xFF, 0, 0, 0⟩) ∧
    (closeCensusRound (census .unknown)).part = .census := ⟨by decide +kernel, by decide +kernel⟩

/-- R62: at the entry to RUNNING the Sequencer takes a request that waits. -/
theorem test_step_at_entry :
    (closeCensusRound { census .present with sq := { list := [⟨.prev, .toe, none⟩] } }).sq =
      { job := some (.lengthRead ⟨.prev, .toe, none⟩) } := by decide +kernel

theorem witness_EntryToRunning :
    ((census .unknown).part = .census ∧ (census .unknown).lc.clears = [] ∧
      ((census .unknown).desc.board 0).kind ≠ .none ∧ (census .unknown).lc.boards[0].state = .unknown) ∧
    (∀ i : Fin 16, ((census .absent).desc.board i).kind ≠ .none → (census .absent).lc.boards[i].state ≠ .unknown) ∧
    (¬ (census .present).silent 1 0 ∧ (census .absent).silent 1 0 ∧
      ∀ i, (beforeRound 0 .absent).silent 1 i) ∧
    (census .absent).dl.loadCause = some .hard := by
  unfold State.silent
  decide +kernel

theorem witness_FrameBitsFollowImages :
    theDesc.stops.length ≤ 384 ∧ theDesc.stops[23]? = some (stopOf 23) ∧ (stopOf 23).lamp = some 3 ∧
    lampBits 1 32 (imageOfStops [23]) 0 theDesc.stops = 8 ∧
      chestBits 2 96 (imageOfStops [5]) 0 theDesc.stops = 128 := by
  decide +kernel

theorem witness_ExchangesEnd :
    ((windowOf { state := .present } (.pollJamb false [] 0)).lc.exchange = .window 0 (.pollJamb false [] 0) ∧
      judgeReply 0 (console.desc.board 0) true (.pollJamb true [] 0) pollReply = .bad ∧
      (windowOf { state := .suspect, missRun := 1 } .census).lc.boards[0].missRun + 1 < 3 ∧
      3 ≤ (windowOf { state := .suspect, missRun := 2 } .census).lc.boards[0].missRun + 1 ∧
      3 ≤ (windowOf { attempts := 2 } .census).lc.boards[0].attempts + 1) ∧
    (judgeReply 0 (console.desc.board 0) false (.pollJamb false [] 0) pollReply = .poll (pollReplyOf pollReply) ∧
      (windowOf { openFrame := some ⟨false, []⟩ } (.pollJamb false [] 0)).lc.boards[0].openFrame = some ⟨false, []⟩) ∧
    (judgeReply 0 (console.desc.board 0) false .census (censusReply 32) = .census (censusReplyOf (censusReply 32)) ∧
      (console.desc.board 0).disagreement (censusReplyOf (censusReply 32)) = .none ∧
      (console.desc.board 0).disagreement (censusReplyOf (censusReply 31)) = .count ∧
      (windowOf { state := .mismatch } .census).lc.boards[0].state = .mismatch) ∧
    (pollReply.length = 18 ∧ pollReply.getD 1 0 = 0x81) ∧
    (⟨.chest, 0, 0, 0, true, 65535, 7, true, 65535⟩ : BoardReading).kind = (console.desc.board 1).kind ∧
    ((⟨.jamb, 255, 255, 255, true, 65535, 0, true, 65535⟩ : BoardReading).kind = (console.desc.board 0).kind ∧
      LinkFrame.pollChest true 0 ≠ .census) := by
  decide +kernel

/-- R119: a CHEST board fills the contact levels and the shoe fields of its reply with 0. -/
theorem test_chest_reply :
    ((BoardReply.poll true).bytes 1 ⟨.chest, 0, 0, 0, true, 96, 0xFF, true, 4095⟩).take 16 =
      [2, 0x81, 2, 1, 0, 0, 0, 0, 0, 0, 0, 0, 0, 0, 0, 0] := by decide +kernel

/-! ### The request board -/

/-- The console at this point of a sweep, the read in hand having taken these bytes. -/
def sweeping (w : Sweep) (bytes : List Byte) : State :=
  { console with rs := { sweep := w }, port := { rs := ⟨[], bytes⟩ } }

/-- R137, R138: a POSTED cell is read; any other is passed over. -/
theorem test_sweepStateReadCompletion :
    out (exec .sweepStateReadCompletion (sweeping (.stateRead 2) [1])) (fun t => (t.rs.sweep, t.port.rs.queue)) =
      some (.cellRead 2, [.read 0x011021, .read 0x011023, .read 0x011024, .read 0x011025]) ∧
    out (exec .sweepStateReadCompletion (sweeping (.stateRead 31) [3])) (fun t => (t.rs.sweep, t.port.rs.queue)) =
      some (.idle, []) := by decide +kernel

/-- 09, Example: RECALL of level 70 is RANGE; CANCEL is taken; an unknown kind is UNKNOWN. -/
theorem test_cellReadCompletion :
    out (exec .cellReadCompletion (sweeping (.cellRead 0) [1, 70, 3, 0])) (fun t => (t.rs.sweep, results t)) =
      some (.refusing 0, [⟨0, .range, 0, 0⟩]) ∧
    out (exec .cellReadCompletion (sweeping (.cellRead 1) [3, 0, 0, 0])) (fun t =>
      (t.rs.sweep, t.port.rs.queue, t.rs.outstanding)) =
      some (.accepting 1 ⟨.cancel, 0, 0⟩, [.write .accept 0x011010 2], 2) ∧
    out (exec .cellReadCompletion (sweeping (.cellRead 1) [17, 0, 0, 0])) results = some [⟨1, .unknown, 0, 0⟩] :=
  ⟨by decide +kernel, by decide +kernel, by decide +kernel⟩

/-- R140, R162: result, value, time and DONE are written; REQ is raised, and the refused cell's sweep moves on. -/
theorem test_cellCompletionWrite :
    out (exec .cellCompletionWrite { console with
        rs := { sweep := .refusing 0, completions := [⟨0, .range, 258, 1000⟩] }
        port := { rs := ⟨completionAccesses ⟨0, .range, 258, 1000⟩, []⟩ } }) (fun t =>
      (t.mem.readBytes 0x011000 16, t.cause, t.rs.sweep)) =
      some ([3, 0, 4, 0, 0, 0, 0, 0, 2, 1, 0, 0, 0xE8, 3, 0, 0], 1, .stateRead 1) := by decide +kernel

theorem witness_SweepTakesCells :
    (sweeping (.stateRead 31) [1]).rs.sweep = .stateRead 31 ∧
    ((finishRead .rs (sweeping (.stateRead 31) [1])).readBytes .rs).getD 0 0 = 1 ∧
      (sweeping (.stateRead 31) [1]).holdsCell 31 = false ∧
    (sweeping (.cellRead 0) [16, 1, 23, 0]).rs.sweep = .cellRead 0 ∧
    natLE ((((finishRead .rs (sweeping (.cellRead 0) [16, 1, 24, 0])).readBytes .rs).drop 2).take 2) = 24 ∧
    RequestKind.ofCode 16 = some .stopSet ∧ RequestKind.ofCode 15 = some .reload ∧ console.desc.header.stops = 24 ∧
    ({ console with rs := { completions := [⟨0, .ok, 0, 5⟩] } } : State).rs.completions = ⟨0, .ok, 0, 5⟩ :: [] ∧
    console.dl.phase ≠ .awaitingCell 0 ∧
    ({ console with dl := { phase := .awaitingCell 0 } } : State).dl.phase = .awaitingCell 0 ∧
    (⟨5, .corrupt, 77777, 1000⟩ : Completion).time = console.clock ∧
    (let s : State := { console with
       rs := { completions := [⟨31, .ok, 9, 5⟩, ⟨0, .ok, 0, 5⟩] }
       port := { rs := ⟨[.read 0x011010] ++ completionAccesses ⟨31, .ok, 9, 5⟩ ++ [.write .accept 0x011010 2], []⟩ } }
     s.mem.wf = true ∧ (∀ a ∈ [Access.read 0x011010], Access.isFor .complete a = false) ∧
       (∀ a ∈ [Access.write .accept 0x011010 2], Access.isFor .complete a = false) ∧
       ∀ k, 0x0111F0 ≤ k → k < 0x0111F0 + 16 → ¬ s.port.othersMayWrite .rs k) :=
  ⟨by decide, by decide +kernel, by decide, by decide, by decide +kernel, rfl, rfl, rfl, rfl, by decide, rfl, rfl,
    by decide, by decide, by decide, fun _ _ _ => nobody_else _ _ _ (by decide +kernel)⟩

/-- R115: CLEAR_FAULTS clears every flag; its value is their number. -/
theorem test_clearFaults :
    out (exec .clearFaults { handing .clearFaults 0 0 with ms := { console.ms with fault := imageOfStops [0, 383] } }) (fun t =>
      (t.ms.fault, results t)) = some (0, [⟨3, .ok, 2, 0⟩]) := by decide +kernel

/-- R133: outside a round CLEAR_COUNTERS is completed at once, in a round at its end. -/
theorem test_clearCounters :
    out (exec .clearCounters { handing .clearCounters 0 0 with lc := { console.lc with boards := Vector.replicate 16 { misses := 2, bads := 1 } } })
      (fun t => (t.lc.boards[15].misses, results t)) = some (0, [⟨3, .ok, 48, 0⟩]) ∧
    out (exec .clearCounters { handing .clearCounters 0 0 with lc := { console.lc with inRound := true } }) (fun t =>
      (t.lc.clears, results t)) = some ([(3, 0)], []) := by decide +kernel

/-- R144: RELOAD with an entry in the motion queue is BUSY; at rest the part enters LOADING with cause RELOAD. -/
theorem test_reload :
    out (exec .reload { moving ⟨2, true, .queued, false, false⟩ 0 0 with rs := { sweep := .reload 3 } }) (fun t =>
      (t.part, t.rs.sweep, results t)) = some (.running, .refusing 3, [⟨3, .busy, 0, 0⟩]) ∧
    out (exec .reload { console with rs := { sweep := .reload 3 } }) (fun t =>
      (t.part, t.dl.loadCause, t.rs.reloadCell, t.mem.read 0x011030)) = some (.loading, some .reload, some 3, 2) :=
        by decide +kernel

theorem witness_FaultsCountersReload :
    (handing .clearFaults 0 0).rs.sweep = .accepting 3 ⟨.clearFaults, 0, 0⟩ ∧
    (handing .clearCounters 0 0).rs.sweep = .accepting 3 ⟨.clearCounters, 0, 0⟩ ∧
    ({ console with rs := { sweep := .reload 3 } } : State).rs.sweep = .reload 3 ∧
    console.ce.queue = [] ∧ console.ce.job = none ∧ console.ms.queue = [] ∧ (acting .undo).ce.queue ≠ [] := by decide

/-! ### The journal and the mirrors -/

/-- An entry as the Journal Writer holds it. -/
def anEntry : JournalEntry :=
  { kind := .captured, origin := .thumb, level := 5, piston := 3, argA := 6, argB := 0x606E, time := 1000 }

/-- The console with the Journal Writer at this point. -/
def writing (p : WriterPhase) (q : BlockPort) : State :=
  { console with jw := { console.jw with phase := p }, port := { jw := q } }

/-- 10, Example: with consumed count 44 the entry is lost; with 50 it is written at index 44 (0x011800 + 16 × 44). -/
theorem test_consumedCountReadCompletion :
    out (exec .consumedCountReadCompletion (writing (.countRead anEntry) ⟨[], [44, 0, 0, 0]⟩)) (fun t =>
      (t.jw.lost, t.jw.phase)) =
      some (1, .idle) ∧
    out (exec .consumedCountReadCompletion (writing (.countRead anEntry) ⟨[], [50, 0, 0, 0]⟩)) (fun t =>
      t.port.jw.queue) =
      some (writeAccesses .entry 0x011AC0 [0x2C, 1, 0, 0, 0xE8, 3, 0, 0, 3, 0, 5, 3, 6, 0, 0x6E, 0x60]) :=
        by decide +kernel

theorem test_journalEntryWriteCompletion :
    out (exec .journalEntryWriteCompletion (writing (.entryWrite anEntry) ⟨[.write .entry 0x011ACF 0x60],
      []⟩)) (fun t =>
      (t.jw.written, t.port.jw.queue)) = some (301, writeAccesses .written 0x011400 [0x2D, 1, 0, 0]) :=
        by decide +kernel

theorem test_writtenCountWriteCompletion :
    out (exec .writtenCountWriteCompletion (writing .countWrite ⟨writeAccesses .written 0x011400 [0x2D, 1, 0, 0],
      []⟩)) (fun t =>
      (t.mem.readBytes 0x011400 4, t.cause, t.jw.phase)) = some ([0x2D, 1, 0, 0], 2, .idle) := by decide +kernel

theorem test_lostCountWriteCompletion :
    out (exec .lostCountWriteCompletion { console with jw := { console.jw with lost := 1, lostWrites := 1 }
                                                       port := { jw := ⟨writeAccesses .lost 0x0101C4 [1, 0], []⟩ } })
      (fun t => (t.mem.readBytes 0x0101C4 2, t.cause, t.jw.lostWrites)) = some ([1, 0], 4, 0) := by decide +kernel

/-- R149: the zeros are written before the first entry is taken. -/
theorem test_journalHeaderClearWriteCompletion :
    out (exec .journalHeaderClearWriteCompletion { console with
        jw := { phase := .clearing, cleared := true, list := [anEntry] }, mem := [(0x011404, 9)]
        port := { jw := ⟨writeAccesses .clear 0x011400 (List.replicate 8 0), []⟩ } }) (fun t =>
          (t.mem, t.jw.phase, t.port.jw.queue)) =
      some ([], .countRead anEntry, readAccesses 0x011404 4) := by decide +kernel

theorem witness_JournalWritten :
    16 ≤ (List.replicate 16 anEntry).length ∧ (List.replicate 15 anEntry).length < 16 ∧ console.jw.phase = .idle ∧
    (writing .countWrite {}).jw.phase ≠ .idle ∧
    (writing (.countRead anEntry) ⟨[], [44, 0, 0, 0]⟩).jw.phase = .countRead anEntry ∧
    256 ≤ ((300 : BitVec 32) - BitVec.ofNat 32 (natLE [44, 0, 0, 0])).toNat ∧
    ((300 : BitVec 32) - BitVec.ofNat 32 (natLE [45, 0, 0, 0])).toNat < 256 ∧
    (writing (.entryWrite anEntry) {}).jw.phase = .entryWrite anEntry ∧ (writing .clearing {}).jw.phase = .clearing ∧
    ({ console with jw := { lostWrites := 1 } } : State).jw.lostWrites ≠ 0 ∧
    (let s : State := { console with
       jw := { console.jw with lostWrites := 2 }
       port := { jw := ⟨[.write .entry 0x011800 1] ++ writeAccesses .lost 0x0101C4 (bytesLE 2 65534) ++
         writeAccesses .lost 0x0101C4 (bytesLE 2 65535), []⟩ } }
     s.mem.wf = true ∧ (∀ y ∈ [Access.write .entry 0x011800 1], Access.isFor .lost y = false) ∧
       ((writeAccesses .lost 0x0101C4 (bytesLE 2 65535)).filter (Access.isFor .lost)).length = 2 * (s.jw.lostWrites - 1) ∧
       ¬ s.port.othersMayWrite .jw 0x0101C4 ∧ ¬ s.port.othersMayWrite .jw 0x0101C5) :=
  ⟨by decide, by decide, rfl, by decide, rfl, by decide +kernel, by decide +kernel, rfl, rfl, by decide, by decide +kernel,
    by decide, by decide +kernel, nobody_else _ _ _ (by decide +kernel), nobody_else _ _ _ (by decide +kernel)⟩

/-- A mirror group in mid-update. -/
def midUpdate {V : Type} (v : V) : Mirror V := { count := 7, updating := true, shadow := v }

/-- R36: the count becomes even and IMG is raised; values that changed meanwhile start the next update at once. -/
theorem test_imageMirrorUpdate :
    out (exec .imageMirrorUpdate { console with ru := { console.ru with mirror := midUpdate console.imageValues }
                                                port := { ru := ⟨writeAccesses .mirror 0x010000 [8, 0, 0, 0], []⟩ } }) (fun t =>
      (t.ru.mirror.count, t.ru.mirror.updating, t.cause, t.mem)) = some (8, false, 8, [(0x010000, 8)]) :=
        by decide +kernel

theorem test_crescendoMirrorUpdate :
    out (exec .crescendoMirrorUpdate { console with cu := { console.cu with mirror := midUpdate console.crescendoValues } }) (fun t =>
      (t.cu.mirror.count, t.cu.mirror.updating, t.cause)) = some (8, false, 0x10) := by decide +kernel

/-- R117: FLT follows the update that shows a newly declared fault. -/
theorem test_motionMirrorUpdate :
    out (exec .motionMirrorUpdate { console with ms := { console.ms with mirror := midUpdate console.motionValues, showing := true } })
      (fun t => (t.ms.mirror.count, t.cause, t.ms.showing)) = some (8, 0x40, false) ∧
    out (exec .motionMirrorUpdate { console with ms := { console.ms with mirror := midUpdate console.motionValues } })
      (fun t => t.cause) = some 0 := by decide +kernel

theorem test_linkMirrorUpdate :
    out (exec .linkMirrorUpdate { console with lc := { console.lc with mirror := midUpdate console.linkValues, showing := true } })
      (fun t => (t.lc.mirror.count, t.cause, t.lc.showing)) = some (8, 0x20, false) := by decide +kernel

theorem witness_MirrorUpdatesEnd :
    console.inReset = false ∧ (midUpdate console.imageValues).updating = true ∧
      (midUpdate console.imageValues).stale = false ∧
    (midUpdate console.imageValues).full = false ∧ (midUpdate console.crescendoValues).updating = true ∧
    (midUpdate console.motionValues).updating = true ∧ (midUpdate console.linkValues).updating = true ∧
    ({ midUpdate console.imageValues with stale := true } : Mirror ImageValues).stale = true ∧
    (midUpdate console.imageValues).count.getLsbD 0 = true ∧
    ((3 : BitVec 16).getLsbD 0 = true ∧ (3 : BitVec 16).getLsbD 1 = true) := by decide +kernel

/-- R36, R157: the full update at an entry to LOADING begins with the odd count and writes the unused bytes 0. -/
theorem test_full_update :
    out (exec (.reset 3) console) (fun t => (t.port.ru.queue.take 4, (t.port.ru.queue.drop 196).length,
      (t.port.ru.queue.drop 197).take 3)) =
      some (writeAccesses .mirror 0x010000 [1, 0, 0, 0], 8, writeAccesses .mirror 0x010005 [0, 0, 0]) := by decide +kernel

end Sys2Proof.Tests
end

/-! ## Stops, divisions and the console description: the checks of the records (R2, R4 to R9, R11 to R13) -/

namespace Sys2Proof.Machine

/-! ### Lists of checks (R12) -/

/-- A list of checks fails nowhere exactly where every check passes. -/
theorem firstFailure_eq_none_iff (checks : List (Bool × Nat)) :
    firstFailure checks = none ↔ ∀ x ∈ checks, x.1 = true := by
  induction checks with
  | nil => simp [firstFailure]
  | cons c checks ih =>
    obtain ⟨ok, code⟩ := c
    cases ok <;> simp [firstFailure, ih]

/-- The code reported is that of a failing check whose predecessors all pass. -/
theorem firstFailure_eq_some {checks : List (Bool × Nat)} {code : Nat} (h : firstFailure checks = some code) :
    ∃ passed later, checks = passed ++ (false, code) :: later ∧ ∀ x ∈ passed, x.1 = true := by
  induction checks with
  | nil => simp [firstFailure] at h
  | cons c checks ih =>
    obtain ⟨ok, code'⟩ := c
    cases ok with
    | false =>
      cases h
      exact ⟨[], checks, rfl, by simp⟩
    | true =>
      obtain ⟨passed, later, rfl, hp⟩ := ih h
      exact ⟨(true, code') :: passed, later, rfl, by simpa using hp⟩

@[simp] theorem firstFailure_nil : firstFailure [] = none := rfl

@[simp] theorem firstFailure_cons_eq_none (ok : Bool) (code : Nat) (checks : List (Bool × Nat)) :
    firstFailure ((ok, code) :: checks) = none ↔ ok = true ∧ firstFailure checks = none := by
  cases ok <;> simp [firstFailure]

@[simp] theorem firstFailure_append_eq_none (l m : List (Bool × Nat)) :
    firstFailure (l ++ m) = none ↔ firstFailure l = none ∧ firstFailure m = none := by
  simp [firstFailure_eq_none_iff, or_imp, forall_and]

@[simp] theorem within_eq_true (low high v : Nat) : within low high v = true ↔ low ≤ v ∧ v ≤ high := by
  simp [within]

@[simp] theorem isDepth_eq_true (v : Nat) : isDepth v = true ↔ v = 1 ∨ v = 2 ∨ v = 4 ∨ v = 8 := by
  simp [isDepth, or_assoc]

/-! ### The header (R2) -/

/-- The header passes exactly where every field is in its range. -/
theorem headerChecks_pass_iff (f : List Nat) : firstFailure (headerChecks f) = none ↔
    fieldAt f 0 = 0xC384 ∧ 1 ≤ (headerOf f).stops ∧ (headerOf f).stops ≤ 384 ∧
    1 ≤ (headerOf f).divisions ∧ (headerOf f).divisions ≤ 8 ∧ 1 ≤ (headerOf f).boards ∧ (headerOf f).boards ≤ 16 ∧
    (headerOf f).generals ≤ 48 ∧ 1 ≤ (headerOf f).levels ∧ (headerOf f).levels ≤ 256 ∧
    (headerOf f).pistons ≤ 256 ∧ 10 ≤ (headerOf f).budget ∧ (headerOf f).budget ≤ 400 ∧
    2 ≤ (headerOf f).roundPeriod ∧ (headerOf f).roundPeriod ≤ 20 ∧
    1 ≤ (headerOf f).replyTimeout ∧ (headerOf f).replyTimeout ≤ 20 ∧ (headerOf f).filterShift ≤ 4 ∧
    (headerOf f).hysteresis ≤ 32 ∧ (headerOf f).startProgram ≤ 3 ∧ fieldAt f 16 ≤ 1 ∧ fieldAt f 17 ≤ 1 ∧
    (headerOf f).lo ≤ 4095 ∧ (headerOf f).hi ≤ 4095 ∧ (headerOf f).lo + 256 ≤ (headerOf f).hi ∧
    (headerOf f).startLevel < (headerOf f).levels := by
  simp only [headerChecks, firstFailure_cons_eq_none, firstFailure_nil, within_eq_true, beq_iff_eq, decide_eq_true_eq,
    headerOf, Nat.zero_le, true_and, and_true, and_assoc]

/-- Settles O17: the list facts by induction on the checks, the header's ranges check by check, the codes as the lists of
checks give them. -/
theorem checksInOrderAndHeaderRanges : Obligations.ChecksInOrderAndHeaderRanges := by
  refine ⟨fun checks => ⟨firstFailure_eq_none_iff checks, fun _ h => firstFailure_eq_some h⟩, headerChecks_pass_iff, ?_⟩
  exact fun d f n lower => ⟨rfl, rfl, rfl, rfl, rfl⟩

/-! ### Divisions and boards (R4, R5) -/

@[simp] theorem divisionOf_pistons (f : List Nat) : (divisionOf f).pistons = fieldAt f 0 := rfl

theorem divisionOf_follow (f : List Nat) :
    (divisionOf f).follow = if fieldAt f 1 = 0xFF then none else some (fieldAt f 1) := rfl

/-- A division passes where its pistons are at most 10 and its follow names another division. -/
theorem divisionChecks_pass_iff (h : Header) (n : Nat) (f : List Nat) : firstFailure (divisionChecks h n f) = none ↔
    (divisionOf f).pistons ≤ 10 ∧ ∀ x, (divisionOf f).follow = some x → x < h.divisions ∧ x ≠ n := by
  by_cases hf : fieldAt f 1 = 0xFF <;> simp [divisionChecks, divisionOf_follow, hf]

theorem boardOf_kind_jamb (f : List Nat) : (boardOf f).kind = .jamb ↔ fieldAt f 0 = 1 := by
  unfold boardOf
  split <;> simp_all

theorem boardOf_kind_chest (f : List Nat) : (boardOf f).kind = .chest ↔ fieldAt f 0 = 2 := by
  unfold boardOf
  split <;> simp_all

theorem boardOf_jamb {f : List Nat} (h : fieldAt f 0 = 1) : boardOf f =
    { kind := .jamb, contacts := fieldAt f 1, coils := fieldAt f 2, lamps := fieldAt f 3, shoe := fieldAt f 4 != 0 } := by
  simp [boardOf, h]

theorem boardOf_chest {f : List Nat} (h : fieldAt f 0 = 2) : boardOf f =
    { kind := .chest, chestBits := fieldAt f 5 } := by
  simp [boardOf, h]

/-- A board passes by its kind: a jamb board's counts and its one shoe, a chest board's bits and its flags. -/
theorem boardChecks_pass_iff (lower : List BoardRec) (f : List Nat) :
    firstFailure (boardChecks lower f) = none ↔
      fieldAt f 0 ≤ 2 ∧
      ((boardOf f).kind = .jamb → (boardOf f).contacts ≤ 64 ∧ (boardOf f).coils ≤ 32 ∧ (boardOf f).lamps ≤ 32 ∧
        ((boardOf f).shoe = true → ∀ b ∈ lower, ¬ (b.kind = .jamb ∧ b.shoe = true))) ∧
      ((boardOf f).kind = .chest → (boardOf f).chestBits ≤ 128 ∧ fieldAt f 4 = 0) := by
  rw [boardOf_kind_jamb, boardOf_kind_chest]
  by_cases hj : fieldAt f 0 = 1
  · by_cases hs : fieldAt f 4 = 0 <;> simp [boardChecks, boardOf_jamb hj, hj, hs, and_assoc]
  · by_cases hc : fieldAt f 0 = 2
    · simp [boardChecks, boardOf_chest hc, hc]
    · simp [boardChecks, hj, hc]

/-! ### Stops (R6, R7, R8, R11) -/

/-- Two stops use one contact. -/
@[simp] theorem StopRec.sameContact_eq_true (a b : StopRec) :
    a.sameContact b = true ↔ a.board = b.board ∧ a.contact = b.contact := by
  simp [StopRec.sameContact]

/-- Two MOVED stops use one coil. -/
@[simp] theorem StopRec.sameCoil_eq_true (a b : StopRec) :
    a.sameCoil b = true ↔ a.kind = .moved ∧ b.kind = .moved ∧ a.board = b.board ∧ a.coil = b.coil := by
  simp [StopRec.sameCoil, and_assoc]

/-- Two stops light one lamp. -/
theorem StopRec.sameLamp_eq_false (a b : StopRec) :
    a.sameLamp b = false ↔ ∀ l, a.lamp = some l → ¬ (a.board = b.board ∧ b.lamp = some l) := by
  cases ha : a.lamp with
  | none => simp [StopRec.sameLamp, ha]
  | some l => simp [StopRec.sameLamp, ha, @eq_comm _ b.lamp]

/-- Two stops use one chest bit. -/
theorem StopRec.sameChest_eq_false (a b : StopRec) :
    a.sameChest b = false ↔ ∀ x, a.chest = some x → b.chest ≠ some x := by
  cases ha : a.chest with
  | none => simp [StopRec.sameChest, ha]
  | some x => simp [StopRec.sameChest, ha, @eq_comm _ b.chest]

/-- A stop clashes with no stop before it. -/
theorem stopClashChecks_pass_iff (d : Desc) (r : StopRec) : firstFailure (stopClashChecks d r) = none ↔
    ∀ q ∈ d.stops,
      ¬ (r.board = q.board ∧ r.contact = q.contact) ∧
      ¬ (r.kind = .moved ∧ q.kind = .moved ∧ r.board = q.board ∧ r.coil = q.coil) ∧
      (∀ l, r.lamp = some l → ¬ (r.board = q.board ∧ q.lamp = some l)) ∧
      (∀ x, r.chest = some x → q.chest ≠ some x) := by
  simp only [stopClashChecks, firstFailure_cons_eq_none, firstFailure_nil, Bool.not_eq_true', List.any_eq_false,
    Bool.not_eq_true, ← StopRec.sameContact_eq_true, ← StopRec.sameCoil_eq_true, ← StopRec.sameLamp_eq_false,
    ← StopRec.sameChest_eq_false, and_true, forall_and]

/-- The common fields of a stop (R6). -/
theorem commonChecks_pass_iff (d : Desc) (f : List Nat) : firstFailure (commonChecks d f) = none ↔
    fieldAt f 0 ≤ 1 ∧ fieldAt f 1 < d.header.divisions ∧ (1 ≤ fieldAt f 2 ∧ fieldAt f 2 ≤ 16) ∧
    (d.boardAt (fieldAt f 2)).kind = .jamb ∧ fieldAt f 3 < (d.boardAt (fieldAt f 2)).contacts ∧
    (fieldAt f 8 = 1 ∨ fieldAt f 8 = 2 ∨ fieldAt f 8 = 4 ∨ fieldAt f 8 = 8) ∧ fieldAt f 9 ≤ 1 := by
  simp [commonChecks]

/-- The fields of a MOVED stop alone (R7). -/
theorem movedChecks_pass_iff (d : Desc) (f : List Nat) : firstFailure (movedChecks d f) = none ↔
    (fieldAt f 0 ≠ 1 → fieldAt f 4 < (d.boardAt (fieldAt f 2)).coils ∧ 1 ≤ fieldAt f 5 ∧ fieldAt f 5 ≤ 40 ∧
      10 ≤ fieldAt f 6 ∧ fieldAt f 6 ≤ 250 ∧ fieldAt f 7 ≤ 100) := by
  by_cases h : fieldAt f 0 = 1 <;> simp [movedChecks, h, and_assoc]

/-- The lamp and the chest mapping (R8). -/
theorem mappingChecks_pass_iff (d : Desc) (f : List Nat) : firstFailure (mappingChecks d f) = none ↔
    fieldAt f 10 ≤ 1 ∧ fieldAt f 12 ≤ 1 ∧
    (fieldAt f 10 = 1 → fieldAt f 11 < (d.boardAt (fieldAt f 2)).lamps) ∧
    (fieldAt f 12 = 1 → 1 ≤ fieldAt f 13 ∧ fieldAt f 13 ≤ 16 ∧ (d.boardAt (fieldAt f 13)).kind = .chest ∧
      fieldAt f 14 < (d.boardAt (fieldAt f 13)).chestBits) := by
  have absent : ∀ (v : Nat) (p : Prop), v ≤ 1 → (v = 0 ∨ p ↔ v = 1 → p) := by
    intro v p hv
    have h := Nat.le_one_iff_eq_zero_or_eq_one.1 hv
    rcases h with rfl | rfl <;> simp
  simp only [mappingChecks, firstFailure_cons_eq_none, firstFailure_nil, within_eq_true, Bool.or_eq_true, beq_iff_eq,
    decide_eq_true_eq, Nat.zero_le, true_and, and_true]
  constructor
  · rintro ⟨h10, lamp, h12, board, kind, bit⟩
    simp only [absent _ _ h10, absent _ _ h12] at lamp board kind bit
    exact ⟨h10, h12, lamp, fun h => ⟨(board h).1, (board h).2, kind h, bit h⟩⟩
  · rintro ⟨h10, h12, lamp, chest⟩
    simp only [absent _ _ h10, absent _ _ h12]
    exact ⟨h10, lamp, h12, fun h => ⟨(chest h).1, (chest h).2.1⟩, fun h => (chest h).2.2.1, fun h => (chest h).2.2.2⟩

theorem stopRecOf_kind_moved (f : List Nat) : (stopRecOf f).kind = .moved ↔ fieldAt f 0 ≠ 1 := by
  by_cases h : fieldAt f 0 = 1 <;> simp [stopRecOf, h]

theorem stopRecOf_lamp (f : List Nat) (l : Nat) :
    (stopRecOf f).lamp = some l ↔ fieldAt f 10 = 1 ∧ fieldAt f 11 = l := by
  by_cases h : fieldAt f 10 = 1 <;> simp [stopRecOf, h]

theorem stopRecOf_chest (f : List Nat) (b k : Nat) :
    (stopRecOf f).chest = some (b, k) ↔ fieldAt f 12 = 1 ∧ fieldAt f 13 = b ∧ fieldAt f 14 = k := by
  by_cases h : fieldAt f 12 = 1 <;> simp [stopRecOf, h]

/-- A stop record passes exactly in its ranges and without a clash. -/
theorem stopChecks_pass_iff (d : Desc) (f : List Nat) (r : StopRec) (hr : r = stopRecOf f) :
    firstFailure (stopChecks d f) = none ↔
    fieldAt f 0 ≤ 1 ∧ fieldAt f 9 ≤ 1 ∧ fieldAt f 10 ≤ 1 ∧ fieldAt f 12 ≤ 1 ∧
    r.division < d.header.divisions ∧ 1 ≤ r.board ∧ r.board ≤ 16 ∧
    (d.boardAt r.board).kind = .jamb ∧ r.contact < (d.boardAt r.board).contacts ∧
    (r.depth = 1 ∨ r.depth = 2 ∨ r.depth = 4 ∨ r.depth = 8) ∧
    (r.kind = .moved → r.coil < (d.boardAt r.board).coils ∧ 1 ≤ r.currentClass ∧ r.currentClass ≤ 40 ∧
      10 ≤ r.pulse ∧ r.pulse ≤ 250 ∧ r.settle ≤ 100) ∧
    (∀ l, r.lamp = some l → l < (d.boardAt r.board).lamps) ∧
    (∀ b k, r.chest = some (b, k) →
      1 ≤ b ∧ b ≤ 16 ∧ (d.boardAt b).kind = .chest ∧ k < (d.boardAt b).chestBits) ∧
    ∀ q ∈ d.stops,
      ¬ (r.board = q.board ∧ r.contact = q.contact) ∧
      ¬ (r.kind = .moved ∧ q.kind = .moved ∧ r.board = q.board ∧ r.coil = q.coil) ∧
      (∀ l, r.lamp = some l → ¬ (r.board = q.board ∧ q.lamp = some l)) ∧
      (∀ x, r.chest = some x → q.chest ≠ some x) := by
  have lamp : (∀ l, r.lamp = some l → l < (d.boardAt r.board).lamps) ↔
      (fieldAt f 10 = 1 → fieldAt f 11 < (d.boardAt r.board).lamps) := by
    simp only [hr, stopRecOf_lamp]
    exact ⟨fun h h1 => h _ ⟨h1, rfl⟩, fun h l hl => hl.2 ▸ h hl.1⟩
  have chest : (∀ b k, r.chest = some (b, k) →
      1 ≤ b ∧ b ≤ 16 ∧ (d.boardAt b).kind = .chest ∧ k < (d.boardAt b).chestBits) ↔
      (fieldAt f 12 = 1 → 1 ≤ fieldAt f 13 ∧ fieldAt f 13 ≤ 16 ∧ (d.boardAt (fieldAt f 13)).kind = .chest ∧
        fieldAt f 14 < (d.boardAt (fieldAt f 13)).chestBits) := by
    simp only [hr, stopRecOf_chest]
    exact ⟨fun h h1 => h _ _ ⟨h1, rfl, rfl⟩, fun h b k hx => hx.2.1 ▸ hx.2.2 ▸ h hx.1⟩
  have moved : r.kind = .moved ↔ fieldAt f 0 ≠ 1 := hr ▸ stopRecOf_kind_moved f
  have common := commonChecks_pass_iff d f
  have coil := movedChecks_pass_iff d f
  have mapping := mappingChecks_pass_iff d f
  have fields : fieldAt f 1 = r.division ∧ fieldAt f 2 = r.board ∧ fieldAt f 3 = r.contact ∧ fieldAt f 4 = r.coil ∧
      fieldAt f 5 = r.currentClass ∧ fieldAt f 6 = r.pulse ∧ fieldAt f 7 = r.settle ∧ fieldAt f 8 = r.depth := by
    rw [hr]
    exact ⟨rfl, rfl, rfl, rfl, rfl, rfl, rfl, rfl⟩
  obtain ⟨f1, f2, f3, f4, f5, f6, f7, f8⟩ := fields
  rw [f1, f2, f3, f8] at common
  rw [f2, f4, f5, f6, f7, ← moved] at coil
  rw [f2, ← lamp, ← chest] at mapping
  rw [stopChecks, firstFailure_append_eq_none, firstFailure_append_eq_none, firstFailure_append_eq_none, ← hr, common,
    coil, mapping, stopClashChecks_pass_iff]
  constructor
  · rintro ⟨⟨⟨⟨kind, division, ⟨low, high⟩, jamb, contact, depth, exempt⟩, coil⟩, hasLamp, hasChest, lamp, chest⟩, clash⟩
    exact ⟨kind, exempt, hasLamp, hasChest, division, low, high, jamb, contact, depth, coil, lamp, chest, clash⟩
  · rintro ⟨kind, exempt, hasLamp, hasChest, division, low, high, jamb, contact, depth, coil, lamp, chest, clash⟩
    exact ⟨⟨⟨⟨kind, division, ⟨low, high⟩, jamb, contact, depth, exempt⟩, coil⟩, hasLamp, hasChest, lamp, chest⟩, clash⟩

/-! ### Piston map entries (R9, R11) -/

theorem functionOf_eq_general (c a b n : Nat) : functionOf c a b = .general n ↔ c = 0 ∧ a = n := by
  unfold functionOf
  split <;> simp_all

theorem functionOf_eq_divisional (c a b v k : Nat) :
    functionOf c a b = .divisional v k ↔ c = 1 ∧ a = v ∧ b = k := by
  unfold functionOf
  split <;> simp_all

theorem functionOf_eq_reversible (c a b n : Nat) : functionOf c a b = .reversible n ↔ c = 10 ∧ b = n := by
  unfold functionOf
  split <;> simp_all

/-- The argument of a function is in its range (R9). -/
theorem argumentOk_iff (d : Desc) (f : List Nat) : argumentOk d f = true ↔
    (∀ n, (pistonOf f).function = .general n → n < d.header.generals) ∧
    (∀ v k, (pistonOf f).function = .divisional v k → v < d.header.divisions ∧ k < (d.division v).pistons) ∧
    (∀ n, (pistonOf f).function = .reversible n → n < d.header.stops) := by
  simp only [argumentOk, pistonOf, functionOf_eq_general, functionOf_eq_divisional, functionOf_eq_reversible]
  split <;> simp_all

/-- A piston map entry passes exactly in its ranges and without a clash. -/
theorem pistonChecks_pass_iff (d : Desc) (f : List Nat) (p : PistonRec) (hp : p = pistonOf f) :
    firstFailure (pistonChecks d f) = none ↔
    fieldAt f 2 ≤ 10 ∧ fieldAt f 3 ≤ 1 ∧
    1 ≤ p.board ∧ p.board ≤ 16 ∧ (d.boardAt p.board).kind = .jamb ∧ p.contact < (d.boardAt p.board).contacts ∧
    (p.depth = 1 ∨ p.depth = 2 ∨ p.depth = 4 ∨ p.depth = 8) ∧
    (∀ n, p.function = .general n → n < d.header.generals) ∧
    (∀ v k, p.function = .divisional v k → v < d.header.divisions ∧ k < (d.division v).pistons) ∧
    (∀ n, p.function = .reversible n → n < d.header.stops) ∧
    (∀ q ∈ d.stops, ¬ (q.board = p.board ∧ q.contact = p.contact)) ∧
    ∀ q ∈ d.pistons, ¬ (q.board = p.board ∧ q.contact = p.contact) := by
  have arguments := argumentOk_iff d f
  rw [← hp] at arguments
  have hb : p.board = fieldAt f 0 := hp ▸ rfl
  have hc : p.contact = fieldAt f 1 := hp ▸ rfl
  have hd : p.depth = fieldAt f 4 := hp ▸ rfl
  simp only [pistonChecks, firstFailure_cons_eq_none, firstFailure_nil, within_eq_true, isDepth_eq_true, arguments,
    beq_iff_eq, decide_eq_true_eq, hb, hc, hd, Bool.and_eq_true, Bool.not_eq_true', List.any_eq_false,
    Nat.zero_le, true_and, and_true]
  constructor
  · rintro ⟨⟨low, high⟩, jamb, contact, code, ⟨general, divisional, reversible⟩, origin, depth, stops, pistons⟩
    exact ⟨code, origin, low, high, jamb, contact, depth, general, divisional, reversible, stops, pistons⟩
  · rintro ⟨code, origin, low, high, jamb, contact, depth, general, divisional, reversible, stops, pistons⟩
    exact ⟨⟨low, high⟩, jamb, contact, code, ⟨general, divisional, reversible⟩, origin, depth, stops, pistons⟩

/-- Settles O18, record kind by record kind. -/
theorem passedStopAndPistonRecords : Obligations.PassedStopAndPistonRecords := by
  refine ⟨divisionChecks_pass_iff, fun lower f r hr => hr ▸ boardChecks_pass_iff lower f, fun d f => ?_, fun d f => ?_⟩
  · rw [exists_eq_left, stopChecks_pass_iff d f _ rfl]
  · rw [exists_eq_left, pistonChecks_pass_iff d f _ rfl]

end Sys2Proof.Machine

/-! ## The course of a load (R1, R10, R12, R13) -/

namespace Sys2Proof.Machine

/-! ### The end of a command -/

/-- The end of a command, as far as a proof about one block needs it: what is visible stands, and so do the accesses of
every block without a guarded mirror group. -/
theorem finish_spec (before s : State) : ∃ t, finish before s = .next t ∧ t.visible = s.visible ∧
    ∀ b : Block, b.unguarded = true → t.port.get b = s.port.get b := by
  obtain ⟨t, ht, hv⟩ := finish_completes before s
  exact ⟨t, ht, hv, fun _ hb => finish_get hb ht⟩

theorem agree.to_visible {p : Part} {s t : State} (h : agree p s t) : agree p s.visible t.visible := by
  cases p
  case port => rfl
  all_goals
    simp only [agree] at h
    simp [agree, State.visible, h]

/-- What two states agree in, they agree in as far as it is visible; the accesses that wait never are. -/
theorem Same.to_visible {ps qs : List Part} {s t : State} (h : Same qs s t) (k : qs ⊆ .port :: ps := by decide) :
    Same ps s.visible t.visible := by
  intro p hp
  by_cases hport : p = .port
  · subst hport
    rfl
  · exact agree.to_visible (h p (fun m => (List.mem_cons.1 (k m)).elim hport hp))

@[simp] theorem startRead_get_self (b : Block) (a n : Nat) (s : State) :
    (startRead b a n s).port.get b = ⟨(s.port.get b).queue ++ readAccesses a n, []⟩ := Port.get_put _ _ _

@[simp] theorem enqueueAccesses_get_self (b : Block) (as : List Access) (s : State) :
    (enqueueAccesses b as s).port.get b = ⟨(s.port.get b).queue ++ as, (s.port.get b).buf⟩ := Port.get_put _ _ _

@[simp] theorem startWrite_get_self (b : Block) (p : Purpose) (a : Nat) (bytes : List Byte) (s : State) :
    (startWrite b p a bytes s).port.get b =
      ⟨(s.port.get b).queue ++ writeAccesses p a bytes, (s.port.get b).buf⟩ := Port.get_put _ _ _

theorem startWrite_get_ne {b c : Block} (h : c ≠ b) (p : Purpose) (a : Nat) (bytes : List Byte) (s : State) :
    (startWrite b p a bytes s).port.get c = s.port.get c := Port.get_put_of_ne _ _ h

/-- Only the Request Scanner waits with the writes of a result. -/
theorem complete_get_ne {b : Block} (h : b ≠ .rs) (c : Nat) (r : RequestResult) (v : Nat) (s : State) :
    (complete c r v s).port.get b = s.port.get b := by
  unfold complete
  dsimp only
  split
  · exact enqueueAccesses_get_ne h _ _
  · rfl

/-! ### What a field of a load leads to -/

/-- The next field of a load is read. -/
theorem readLoadField_visible (load : Load) (s : State) :
    (readLoadField load s).visible = { s.visible with dl := { s.visible.dl with phase := .reading load } } := by
  unfold readLoadField
  split <;> rfl

theorem readLoadField_get {load : Load} {a n : Nat} (h : load.place.nextField load.fields = some (a, n)) (s : State) :
    (readLoadField load s).port.get .dl = ⟨(s.port.get .dl).queue ++ readAccesses a n, []⟩ := by
  unfold readLoadField
  rw [h]
  exact startRead_get_self _ _ _ _

/-- The Description Loader as it begins to report a failed check (R13). -/
def State.reporting (s : State) (place : LoadPlace) (code : Nat) : Loader :=
  { s.dl with
    errorCode := code, recordClass := place.recordClass, recordIndex := place.recordIndex
    phase := .reporting s.rs.reloadCell }

theorem failLoad_of_none {s : State} (h : s.rs.reloadCell = none) (place : LoadPlace) (code : Nat) :
    failLoad place code s = writeReport .report { s with dl := s.reporting place code } := by
  unfold failLoad
  dsimp only
  split
  · rename_i c hc
    exact absurd (h.symm.trans hc) nofun
  · rfl

theorem failLoad_of_some {s : State} {c : Nat} (h : s.rs.reloadCell = some c) (place : LoadPlace) (code : Nat) :
    failLoad place code s = complete c .range (reportValue code place.recordClass place.recordIndex)
      { writeReport .report { s with dl := s.reporting place code } with rs := { s.rs with reloadCell := none } } := by
  unfold failLoad
  dsimp only
  split
  · rename_i c' hc
    cases h.symm.trans hc
    rfl
  · rename_i hc
    exact absurd (h.symm.trans hc) nofun

/-- A failed check: the report, and the result RANGE of a RELOAD's cell (R13). -/
theorem failLoad_visible (place : LoadPlace) (code : Nat) (s : State) :
    (failLoad place code s).visible = { s.visible with
      dl := s.reporting place code
      rs := { s.rs with
        reloadCell := none
        completions := s.resultsWith s.rs.reloadCell .range
          (reportValue code place.recordClass place.recordIndex) } } := by
  cases hc : s.rs.reloadCell with
  | none =>
    have hr : s.resultsWith none .range (reportValue code place.recordClass place.recordIndex) = s.rs.completions :=
      List.append_nil _
    rw [failLoad_of_none hc, hr, ← hc]
    rfl
  | some c =>
    rw [failLoad_of_some hc, complete_visible]
    rfl

/-- The report's bytes wait behind what the loader waited with. -/
theorem failLoad_queue (place : LoadPlace) (code : Nat) (s : State) :
    ((failLoad place code s).port.get .dl).queue = (s.port.get .dl).queue ++ writeAccesses .report 0x0101C0
      (bytesLE 1 code ++ bytesLE 1 place.recordClass ++ bytesLE 2 place.recordIndex) := by
  have report : ((writeReport .report { s with dl := s.reporting place code }).port.get .dl).queue = _ :=
    congrArg BlockPort.queue (startWrite_get_self ..)
  cases hc : s.rs.reloadCell with
  | none =>
    rw [failLoad_of_none hc]
    exact report
  | some c =>
    rw [failLoad_of_some hc, complete_get_ne (by decide)]
    exact report

/-- The fields of a record once a value has been added, with 0 for those that are not read (R7, R8, R9). -/
def Load.fieldsWith (load : Load) (v : Nat) : List Nat :=
  load.place.padded load.place.fields.length (load.fields ++ [v])

section
variable {load : Load} {v : Nat} (s : State) (hp : ∀ p read, load.place ≠ .program p read)
include hp

/-- A field of a record: the record is checked when it is full (R1). -/
theorem takeLoadField_record : takeLoadField load v s =
    if (load.fieldsWith v).length < load.place.fields.length then
      readLoadField { load with fields := load.fieldsWith v } s
    else match firstFailure (recordChecks load.copy load.place (load.fieldsWith v)) with
      | some code => failLoad load.place code s
      | none => readRecord { load with copy := load.copy.withRecord load.place (load.fieldsWith v) }
          (nextPlace (load.copy.withRecord load.place (load.fieldsWith v)).header load.place) s := by
  unfold takeLoadField
  split
  · rename_i p read h
    exact absurd h (hp p read)
  · rfl

theorem takeLoadField_more (h : (load.fieldsWith v).length < load.place.fields.length) :
    takeLoadField load v s = readLoadField { load with fields := load.fieldsWith v } s := by
  rw [takeLoadField_record s hp, if_pos h]

theorem takeLoadField_failed (h : ¬ (load.fieldsWith v).length < load.place.fields.length) {code : Nat}
    (hc : firstFailure (recordChecks load.copy load.place (load.fieldsWith v)) = some code) :
    takeLoadField load v s = failLoad load.place code s := by
  rw [takeLoadField_record s hp, if_neg h, hc]

theorem takeLoadField_passed (h : ¬ (load.fieldsWith v).length < load.place.fields.length)
    (hc : firstFailure (recordChecks load.copy load.place (load.fieldsWith v)) = none) :
    takeLoadField load v s = readRecord { load with copy := load.copy.withRecord load.place (load.fieldsWith v) }
      (nextPlace (load.copy.withRecord load.place (load.fieldsWith v)).header load.place) s := by
  rw [takeLoadField_record s hp, if_neg h, hc]

end

/-- A field of a crescendo program is checked as it is read (R10). -/
theorem takeLoadField_program {load : Load} {p : Nat} {read : ProgramRead} (h : load.place = .program p read) (v : Nat)
    (s : State) : takeLoadField load v s =
    match read.take load.copy.header.stops v with
    | .failed _ => failLoad (.program p read) 10 s
    | .more r => readLoadField { load with place := .program p r } s
    | .whole stages => endProgram load p stages s := by
  unfold takeLoadField
  rw [h]
  rfl

/-! ### DESCRIPTION_READ_COMPLETION -/

/-- The read of a load completes, its value is taken, and the command ends. -/
theorem exec_descriptionReadCompletion {s u : State} {load : Load} (h : s.dl.phase = .reading load)
    (hu : u = finishRead .dl s) :
    exec .descriptionReadCompletion s = finish s (takeLoadField load (natLE (u.readBytes .dl)) u) := by
  subst hu
  show execDescriptionReadCompletion s = _
  unfold execDescriptionReadCompletion
  rw [h]

/-- The field that follows is read, behind what the loader waited with, and nothing else visible changes. -/
theorem reads_on {s u t : State} {load : Load} (hus : Same [.mem, .port] s u)
    (hv : t.visible = (readLoadField load u).visible)
    (hport : t.port.get .dl = (readLoadField load u).port.get .dl) :
    t.dl = { s.dl with phase := .reading load } ∧ Same [.mem, .dl] s.visible t.visible ∧
      ∀ a n, load.place.nextField load.fields = some (a, n) →
        t.port.get .dl = ⟨(u.port.get .dl).queue ++ readAccesses a n, []⟩ := by
  have hdl : s.dl = u.dl := hus.get .dl
  refine ⟨?_, ?_, fun a n ha => ?_⟩
  · rw [hdl]
    exact congrArg State.dl (hv.trans (readLoadField_visible load u))
  · exact hv ▸ Same.to_visible (qs := [.mem, .dl, .port]) ((readLoadField_same _ (by decide)).2 (hus.mono (by decide)))
  · rw [hport, readLoadField_get ha]

/-- The load ends with its report, and with the result of a RELOAD's cell (R13). -/
theorem reports {s u t : State} {place : LoadPlace} {code : Nat} (hus : Same [.mem, .port] s u)
    (hv : t.visible = (failLoad place code u).visible)
    (hport : t.port.get .dl = (failLoad place code u).port.get .dl) :
    t.dl = s.reporting place code ∧
      t.rs = { s.rs with
        reloadCell := none
        completions := s.resultsWith s.rs.reloadCell .range (reportValue code place.recordClass place.recordIndex) } ∧
      Same [.mem, .dl, .rs] s.visible t.visible ∧
      (t.port.get .dl).queue = (u.port.get .dl).queue ++ writeAccesses .report 0x0101C0
        (bytesLE 1 code ++ bytesLE 1 place.recordClass ++ bytesLE 2 place.recordIndex) := by
  have hdl : s.dl = u.dl := hus.get .dl
  have hrs : s.rs = u.rs := hus.get .rs
  have hclock : s.clock = u.clock := hus.get .clock
  refine ⟨?_, ?_, ?_, ?_⟩
  · rw [State.reporting, hdl, hrs]
    exact congrArg State.dl (hv.trans (failLoad_visible _ _ u))
  · rw [State.resultsWith, hrs, hclock]
    exact congrArg State.rs (hv.trans (failLoad_visible _ _ u))
  · exact hv ▸ Same.to_visible (qs := [.mem, .dl, .rs, .port])
      ((failLoad_same _ _ (by decide)).2 (hus.mono (by decide)))
  · rw [hport, failLoad_queue]

/-- What DESCRIPTION_READ_COMPLETION leaves is, as far as it is visible, what the field read leads to; console memory is
what the read left. -/
theorem descriptionReadCompletion_spec {s u : State} {load : Load} (h : s.dl.phase = .reading load)
    (hu : u = finishRead .dl s) : ∃ t, exec .descriptionReadCompletion s = .next t ∧ t.mem = u.mem ∧
      t.visible = (takeLoadField load (natLE (u.readBytes .dl)) u).visible ∧
      t.port.get .dl = (takeLoadField load (natLE (u.readBytes .dl)) u).port.get .dl := by
  rw [exec_descriptionReadCompletion h hu]
  obtain ⟨t, ht, hv, hq⟩ := finish_spec s (takeLoadField load (natLE (u.readBytes .dl)) u)
  have hm := ((takeLoadField_same load (natLE (u.readBytes .dl)) (List.Subset.refl _)).2 (Same.refl _ u)).get .mem
  exact ⟨t, ht, (congrArg State.mem hv).trans hm.symm, hv, hq .dl rfl⟩

/-! ### The fields that are not read (R7, R8, R9) -/

theorem fieldAt_append {f : List Nat} {k : Nat} (h : k < f.length) (g : List Nat) : fieldAt (f ++ g) k = fieldAt f k :=
  List.getD_append f g 0 k h

/-- `m` fields that are not read stand as 0, where the field behind them is read or the record ends there. -/
theorem padded_eq_append {place : LoadPlace} {f : List Nat} (m k : Nat)
    (skipped : ∀ j < m, f.length + j < place.fields.length ∧ place.skips (f ++ List.replicate j 0) = true)
    (stops : place.skips (f ++ List.replicate m 0) = false) :
    place.padded (m + k) f = f ++ List.replicate m 0 := by
  induction m generalizing f with
  | zero =>
    rw [List.replicate_zero, List.append_nil] at *
    cases k <;> simp [LoadPlace.padded, stops]
  | succ m ih =>
    have shift : ∀ j, f ++ [0] ++ List.replicate j 0 = f ++ List.replicate (j + 1) 0 := fun j => by
      rw [List.append_assoc, List.singleton_append, List.replicate_succ]
    obtain ⟨hl, hs⟩ := skipped 0 (Nat.succ_pos m)
    rw [List.replicate_zero, List.append_nil] at hs
    have hstep : place.padded (m + 1 + k) f = place.padded (m + k) (f ++ [0]) := by
      rw [Nat.succ_add, LoadPlace.padded, if_pos ⟨hl, hs⟩]
    rw [hstep, ih, shift]
    · intro j hj
      obtain ⟨hl, hs⟩ := skipped (j + 1) (Nat.succ_lt_succ hj)
      rw [shift]
      exact ⟨by rw [List.length_append, List.length_singleton]; omega, hs⟩
    · rw [shift]
      exact stops

/-- A field that is read is not skipped. -/
theorem padded_of_not_skips {place : LoadPlace} {f : List Nat} (h : place.skips f = false) (n : Nat) :
    place.padded n f = f := by
  cases n <;> simp [LoadPlace.padded, h]

/-- What a stop's record does not have: the coil fields of a LIT stop, the number of an absent lamp, those of an absent
chest bit (R7, R8). -/
theorem skips_stop (o : Nat) (f : List Nat) : (LoadPlace.stop o).skips f = true ↔
    ((4 ≤ f.length ∧ f.length ≤ 7) ∧ fieldAt f 0 = 1) ∨ (f.length = 11 ∧ fieldAt f 10 = 0) ∨
      ((f.length = 13 ∨ f.length = 14) ∧ fieldAt f 12 = 0) := by
  simp [LoadPlace.skips, or_assoc]

theorem skips_piston (o : Nat) (f : List Nat) : (LoadPlace.piston o).skips f = true ↔
    (f.length = 5 ∧ ¬ (fieldAt f 2 = 0 ∨ fieldAt f 2 = 1)) ∨
      (f.length = 6 ∧ ¬ (fieldAt f 2 = 1 ∨ fieldAt f 2 = 10)) := by
  simp [LoadPlace.skips, takesArgument1, takesArgument2]

theorem padded_stop_read {o : Nat} {f : List Nat} (h : ¬ (((4 ≤ f.length ∧ f.length ≤ 7) ∧ fieldAt f 0 = 1) ∨
    (f.length = 11 ∧ fieldAt f 10 = 0) ∨ ((f.length = 13 ∨ f.length = 14) ∧ fieldAt f 12 = 0))) :
    (LoadPlace.stop o).padded 15 f = f :=
  padded_of_not_skips (by rwa [← Bool.not_eq_true, skips_stop]) 15

theorem padded_piston_read {o : Nat} {f : List Nat} (h : ¬ ((f.length = 5 ∧ ¬ (fieldAt f 2 = 0 ∨ fieldAt f 2 = 1)) ∨
    (f.length = 6 ∧ ¬ (fieldAt f 2 = 1 ∨ fieldAt f 2 = 10)))) : (LoadPlace.piston o).padded 7 f = f :=
  padded_of_not_skips (by rwa [← Bool.not_eq_true, skips_piston]) 7

/-- `m` fields of a stop that are not read stand as 0, where none of the fields that decide it is among them. -/
theorem padded_stop_skipped {o m : Nat} {f : List Nat} (hm : f.length + m ≤ 15)
    (skipped : ∀ j < m, (LoadPlace.stop o).skips (f ++ List.replicate j 0) = true)
    (length : f.length + m = 8 ∨ f.length + m = 12 ∨ f.length + m = 15) :
    (LoadPlace.stop o).padded 15 f = f ++ List.replicate m 0 := by
  obtain ⟨k, hk⟩ : ∃ k, 15 = m + k := ⟨15 - m, by omega⟩
  rw [hk]
  refine padded_eq_append m k (fun j hj => ⟨?_, skipped j hj⟩) ?_
  · show f.length + j < 15
    omega
  · rw [← Bool.not_eq_true, skips_stop, List.length_append, List.length_replicate]
    omega

/-- Behind a LIT stop's contact stand four fields of 0 (R7). -/
theorem padded_stop_coil {o : Nat} {f : List Nat} (hl : f.length = 4) :
    (LoadPlace.stop o).padded 15 f = if fieldAt f 0 = 1 then f ++ [0, 0, 0, 0] else f := by
  split
  · rename_i h
    refine padded_stop_skipped (m := 4) (by omega) (fun j hj => ?_) (by omega)
    rw [skips_stop, fieldAt_append (by omega), List.length_append, List.length_replicate]
    exact Or.inl ⟨by omega, h⟩
  · exact padded_stop_read (by omega)

/-- Behind the flag of an absent lamp stands one field of 0 (R8). -/
theorem padded_stop_lamp {o : Nat} {f : List Nat} (hl : f.length = 11) :
    (LoadPlace.stop o).padded 15 f = if fieldAt f 10 = 0 then f ++ [0] else f := by
  split
  · rename_i h
    refine padded_stop_skipped (m := 1) (by omega) (fun j hj => ?_) (by omega)
    rw [skips_stop, fieldAt_append (k := 10) (by omega), List.length_append, List.length_replicate]
    exact Or.inr (Or.inl ⟨by omega, h⟩)
  · exact padded_stop_read (by omega)

/-- Behind the flag of an absent chest mapping stand two fields of 0 (R8). -/
theorem padded_stop_chest {o : Nat} {f : List Nat} (hl : f.length = 13) :
    (LoadPlace.stop o).padded 15 f = if fieldAt f 12 = 0 then f ++ [0, 0] else f := by
  split
  · rename_i h
    refine padded_stop_skipped (m := 2) (by omega) (fun j hj => ?_) (by omega)
    rw [skips_stop, fieldAt_append (k := 12) (by omega), List.length_append, List.length_replicate]
    exact Or.inr (Or.inr ⟨by omega, h⟩)
  · exact padded_stop_read (by omega)

/-- Every other field of a stop is read. -/
theorem padded_stop_else {o : Nat} {f : List Nat} (hl : f.length ∉ [4, 5, 6, 7, 11, 13, 14]) :
    (LoadPlace.stop o).padded 15 f = f := by
  simp only [List.mem_cons, List.not_mem_nil, or_false] at hl
  exact padded_stop_read (by omega)

/-- Fields of a piston map entry behind its function that are not read stand as 0. -/
theorem padded_piston_skipped {o m : Nat} {f : List Nat} (hm : f.length + m ≤ 7) (hl : 5 ≤ f.length)
    (skipped : ∀ j < m, (f.length + j = 5 ∧ ¬ (fieldAt f 2 = 0 ∨ fieldAt f 2 = 1)) ∨
      (f.length + j = 6 ∧ ¬ (fieldAt f 2 = 1 ∨ fieldAt f 2 = 10)))
    (stops : f.length + m = 7 ∨ (f.length + m = 6 ∧ fieldAt f 2 = 10)) :
    (LoadPlace.piston o).padded 7 f = f ++ List.replicate m 0 := by
  have added : ∀ j, (f ++ List.replicate j 0).length = f.length + j ∧
      fieldAt (f ++ List.replicate j 0) 2 = fieldAt f 2 :=
    fun j => ⟨by rw [List.length_append, List.length_replicate], fieldAt_append (by omega) _⟩
  obtain ⟨k, hk⟩ : ∃ k, 7 = m + k := ⟨7 - m, by omega⟩
  rw [hk]
  refine padded_eq_append m k (fun j hj => ⟨?_, ?_⟩) ?_
  · show f.length + j < 7
    omega
  · rw [skips_piston, (added j).1, (added j).2]
    exact skipped j hj
  · rw [← Bool.not_eq_true, skips_piston, (added m).1, (added m).2]
    omega

/-- Behind a function that takes no argument stand two fields of 0, behind one that takes the second alone one (R9). -/
theorem padded_piston_function {o : Nat} {f : List Nat} (hl : f.length = 5) :
    (LoadPlace.piston o).padded 7 f =
      if fieldAt f 2 = 0 ∨ fieldAt f 2 = 1 then f else if fieldAt f 2 = 10 then f ++ [0] else f ++ [0, 0] := by
  split
  · exact padded_piston_read (by omega)
  · split
    · exact padded_piston_skipped (m := 1) (by omega) (by omega) (fun j hj => by omega) (by omega)
    · exact padded_piston_skipped (m := 2) (by omega) (by omega) (fun j hj => by omega) (by omega)

/-- A second argument that the function does not take stands as 0 (R9). -/
theorem padded_piston_argument {o : Nat} {f : List Nat} (hl : f.length = 6) :
    (LoadPlace.piston o).padded 7 f = if fieldAt f 2 = 1 ∨ fieldAt f 2 = 10 then f else f ++ [0] := by
  split
  · exact padded_piston_read (by omega)
  · exact padded_piston_skipped (m := 1) (by omega) (by omega) (fun j hj => by omega) (by omega)

/-- Every other field of a piston map entry is read. -/
theorem padded_piston_else {o : Nat} {f : List Nat} (hl : f.length ∉ [5, 6]) : (LoadPlace.piston o).padded 7 f = f := by
  simp only [List.mem_cons, List.not_mem_nil, or_false] at hl
  exact padded_piston_read (by omega)

/-- The next field of a record lies at its offset in the record (R160). -/
theorem nextField_of_fields {place : LoadPlace} {f : List Nat} {n : Nat × Nat}
    (hp : ∀ p read, place ≠ .program p read) (h : place.fields[f.length]? = some n) :
    place.nextField f = some (place.base + n.1, n.2) := by
  cases place with
  | program p read => exact absurd rfl (hp p read)
  | _ => simp only [LoadPlace.nextField, h, Option.map_some]

/-! ### The settled statements -/

/-- DESCRIPTION_READ_COMPLETION in a record, with the record that passes and the place after it by their names. -/
theorem recordRead (s u : State) (load : Load) (f : List Nat) (h : s.dl.phase = .reading load)
    (hp : ∀ p read, load.place ≠ .program p read) (hu : u = finishRead .dl s)
    (hf : f = load.fieldsWith (natLE (u.readBytes .dl))) :
    ∃ t, exec .descriptionReadCompletion s = .next t ∧ t.mem = u.mem ∧
      (f.length < load.place.fields.length →
        t.dl = { s.dl with phase := .reading { load with fields := f } } ∧ Same [.mem, .dl] s.visible t.visible ∧
        ∀ a n, load.place.nextField f = some (a, n) →
          t.port.get .dl = ⟨(u.port.get .dl).queue ++ readAccesses a n, []⟩) ∧
      (¬ f.length < load.place.fields.length → firstFailure (recordChecks load.copy load.place f) = none →
        ∀ (copy : Desc) (next : LoadPlace), copy = load.copy.withRecord load.place f →
          next = nextPlace copy.header load.place →
          t.dl = { s.dl with phase := .reading { load with copy := copy, place := next, fields := [] } } ∧
          Same [.mem, .dl] s.visible t.visible ∧
          ∀ a n, next.nextField [] = some (a, n) →
            t.port.get .dl = ⟨(u.port.get .dl).queue ++ readAccesses a n, []⟩) ∧
      (∀ code, ¬ f.length < load.place.fields.length →
        firstFailure (recordChecks load.copy load.place f) = some code →
        t.dl = s.reporting load.place code ∧
        t.rs = { s.rs with
          reloadCell := none
          completions := s.resultsWith s.rs.reloadCell .range
            (reportValue code load.place.recordClass load.place.recordIndex) } ∧
        Same [.mem, .dl, .rs] s.visible t.visible ∧
        (t.port.get .dl).queue = (u.port.get .dl).queue ++ writeAccesses .report 0x0101C0
          (bytesLE 1 code ++ bytesLE 1 load.place.recordClass ++ bytesLE 2 load.place.recordIndex)) := by
  obtain ⟨t, ht, hmem, hv, hport⟩ := descriptionReadCompletion_spec h hu
  have hus : Same [.mem, .port] s u := hu ▸ by simp
  subst hf
  refine ⟨t, ht, hmem, fun hl => ?_, fun hl hc copy next hcopy hnext => ?_, fun code hl hc => ?_⟩
  · rw [takeLoadField_more u hp hl] at hv hport
    exact reads_on hus hv hport
  · rw [takeLoadField_passed u hp hl hc, ← hcopy, ← hnext] at hv hport
    exact reads_on hus hv hport
  · rw [takeLoadField_failed u hp hl hc] at hv hport
    exact reports hus hv hport

/-- Settles O19: the three courses of a record are `takeLoadField_more`, `takeLoadField_passed` and
`takeLoadField_failed`; the fields that are not read are those that `skips_stop` and `skips_piston` name. -/
theorem recordCheckedWhenFull : Obligations.RecordCheckedWhenFull := by
  refine ⟨fun s u load f h hp hu hf => ?_, fun place f g o hg => ⟨?_, ?_, ?_⟩, fun place f => ⟨?_, ?_⟩⟩
  · obtain ⟨t, ht, hmem, more, passed, failed⟩ := recordRead s u load f h hp hu hf
    refine ⟨t, ht, hmem, more, fun hl hc copy next hcopy hnext => ?_, fun code hl hc => ?_⟩
    · refine passed hl hc copy next ?_ ?_
      · rw [hcopy]
        cases load.place <;> rfl
      · rw [hnext]
        cases load.place <;> rfl
    · obtain ⟨hdl, hrs, hsame, hqueue⟩ := failed code hl hc
      refine ⟨hdl, fun c hcell => ?_, fun hcell => ?_, hsame, hqueue⟩
      · rw [hrs, hcell]
        rfl
      · rw [hrs, hcell]
        exact congrArg (fun l => { s.rs with reloadCell := none, completions := l }) (List.append_nil _) |>.trans
          (by rw [← hcell])
  · rintro (rfl | rfl | rfl) <;> rw [hg] <;> exact padded_of_not_skips rfl _
  · rintro rfl
    exact ⟨fun hl => hg.trans (padded_stop_coil hl), fun hl => hg.trans (padded_stop_lamp hl),
      fun hl => hg.trans (padded_stop_chest hl), fun hl => hg.trans (padded_stop_else hl)⟩
  · rintro rfl
    exact ⟨fun hl => hg.trans (padded_piston_function hl), fun hl => hg.trans (padded_piston_argument hl),
      fun hl => hg.trans (padded_piston_else hl)⟩
  · rintro p read rfl
    rfl
  · intro base o n hmem hn
    simp only [List.mem_cons, Prod.mk.injEq, List.not_mem_nil, or_false] at hmem
    obtain ⟨rfl, rfl⟩ | ⟨rfl, rfl⟩ | ⟨rfl, rfl⟩ | ⟨rfl, rfl⟩ | ⟨rfl, rfl⟩ := hmem <;>
      exact nextField_of_fields (fun _ _ => nofun) hn

end Sys2Proof.Machine

/-! ## Crescendo programs, the hand-over and the report of a load (R10, R13 to R15) -/

namespace Sys2Proof.Machine

/-- A flag that is raised is set. -/
theorem hasCause_of_cause {s : State} {cause : BitVec 8} {f : CauseFlag} (h : s.cause = setBit cause f.bit true) :
    s.hasCause f = true := by
  rw [State.hasCause, h, getLsbD_setBit, if_pos ⟨rfl, by cases f <;> decide⟩]

/-! ### A crescendo program at a load (R10) -/

/-- A load that keeps the contents of a program read whole if R15 makes it active. -/
def Load.keeping (load : Load) (s : State) (p : Nat) (stages : List (List Nat)) : Load :=
  { load with program := if p = s.activeProgram load.copy.header then stages else load.program }

theorem endProgram_eq (load : Load) (p : Nat) (stages : List (List Nat)) (s : State) :
    endProgram load p stages s =
      if p < 3 then readRecord (load.keeping s p stages) (.program (p + 1) {}) s
      else handOver (load.keeping s p stages) s := by
  unfold endProgram Load.keeping
  by_cases h : p = s.activeProgram load.copy.header
  · simp only [if_pos h]
    rfl
  · simp only [if_neg h]
    rfl

/-- The active program of R15 is a matter of the load cause and the program number alone. -/
theorem activeProgram_of_same {s u : State} (h : Same [.mem, .port] s u) (header : Header) :
    u.activeProgram header = s.activeProgram header := by
  have hdl : s.dl = u.dl := h.get .dl
  have hcu : s.cu = u.cu := h.get .cu
  rw [State.activeProgram, State.activeProgram, hdl, hcu]

/-- Settles O20: the three outcomes of a field of a program (`ProgramRead.take`). -/
theorem programCheckedAtLoad : Obligations.ProgramCheckedAtLoad := by
  intro s u load p read out h hp hu hout
  obtain ⟨t, ht, hmem, hv, hport⟩ := descriptionReadCompletion_spec h hu
  have hus : Same [.mem, .port] s u := hu ▸ by simp
  rw [takeLoadField_program hp, ← hout] at hv hport
  refine ⟨t, ht, hmem, fun j hj => ?_, fun r hr => ?_, fun stages hs hlt => ?_⟩
  · subst hj
    obtain ⟨hdl, hrs, hsame, hqueue⟩ := reports (place := .program p read) (code := 10) hus hv hport
    exact ⟨hdl, hrs, hsame, hqueue⟩
  · subst hr
    obtain ⟨hdl, hsame, hread⟩ := reads_on hus hv hport
    exact ⟨hdl, hsame, hread _ _ rfl⟩
  · subst hs
    dsimp only at hv hport
    rw [endProgram_eq, if_pos hlt, readRecord, Load.keeping, activeProgram_of_same hus] at hv hport
    obtain ⟨hdl, hsame, hread⟩ := reads_on hus hv hport
    have next : (LoadPlace.program (p + 1) {}).nextField [] = some (0x015000 + 4096 * (p + 1), 2) := by
      simp [LoadPlace.nextField, programAddr]
    exact ⟨hsame, hread _ _ next, hdl⟩

/-! ### The hand-over (R14, R15) -/

/-- Level and capture settings settle by the load cause (R15). -/
theorem settleCombination_ce (h : Header) (s : State) :
    (settleCombination h s).ce.level = (if s.dl.loadCause = some .hard then h.startLevel
        else if s.ce.level ≥ h.levels then h.levels - 1 else s.ce.level) ∧
    (settleCombination h s).ce.captureEnable =
      (if s.dl.loadCause = some .hard then h.captureEnable else s.ce.captureEnable) ∧
    (settleCombination h s).ce.captureScope =
      (if s.dl.loadCause = some .hard then h.captureScope else s.ce.captureScope) := by
  unfold settleCombination
  by_cases hc : s.dl.loadCause = some .hard
  · simp only [if_pos hc]
    exact ⟨rfl, rfl, rfl⟩
  · simp only [if_neg hc]
    split <;> exact ⟨rfl, rfl, rfl⟩

/-- In CENSUS a round addresses the described boards that are UNKNOWN, with CENSUS requests (R123). -/
theorem roundRequest_census {s : State} (hp : s.part = .census) (i : Fin 16) : s.roundRequest i =
    if (s.desc.board i).kind ≠ .none ∧ s.lc.boards[i].state = .unknown then .census else .none := by
  unfold State.roundRequest
  rw [hp]
  by_cases hk : (s.desc.board i).kind = .none
  · simp [hk]
  · generalize hb : s.lc.boards[i].state = b
    cases b <;> simp [hk]

theorem mem_allBoards (i : Fin 16) : i ∈ allBoards := by
  revert i
  decide

/-- The first census round finds a board to address where a described board is UNKNOWN (R123, R125). -/
theorem openCensusRound_of_unknown {s : State} {i : Fin 16} (hp : s.part = .census)
    (hk : (s.desc.board i).kind ≠ .none) (hs : s.lc.boards[i].state = .unknown) :
    ∃ j, openCensusRound s = { s with lc := { s.lc with
      inRound := true, due := s.after s.desc.header.roundPeriod, exchange := .sending j .census } } := by
  unfold openCensusRound openRoundWith
  dsimp only
  generalize hr : ({ s with lc := { s.lc with inRound := true, due := s.after s.desc.header.roundPeriod } } : State) = r
  have called : r.roundRequest i = .census := by
    rw [roundRequest_census (hr ▸ hp), if_pos]
    subst hr
    exact ⟨hk, hs⟩
  have first : (r.nextBoard 0).isSome = true :=
    List.find?_isSome.2 ⟨i, mem_allBoards i, by simp [called]⟩
  obtain ⟨j, hj⟩ := Option.isSome_iff_exists.1 first
  have found : r.roundRequest j ≠ .none := by simpa using List.find?_some hj
  have census : r.roundRequest j = .census := by
    rw [roundRequest_census (hr ▸ hp)] at found ⊢
    split at found
    · rw [if_pos ‹_›]
    · exact absurd rfl found
  refine ⟨j, ?_⟩
  rw [hj]
  show beginExchange j r = _
  unfold beginExchange
  rw [if_pos census, ← hr]

/-- The state as the first census round finds it: the copy handed over, the values settled (R14, R15). -/
def State.handedOver (s : State) (load : Load) : State :=
  changePart .census (settleCrescendo load (settleCombination load.copy.header
    { s with dl := { s.dl with valid := true, copy := load.copy, loadedOnce := true, phase := .idle } }))

theorem handOver_eq (load : Load) (s : State) : handOver load s = openCensusRound (s.handedOver load) := rfl

theorem handedOver_same (load : Load) (s : State) : Same [.part, .cause, .cu, .ru, .ce, .port, .dl] s (s.handedOver load) := by
  simp [State.handedOver]

theorem handedOver_dl (load : Load) (s : State) : (s.handedOver load).dl =
    { s.dl with valid := true, copy := load.copy, loadedOnce := true, phase := .idle } := by
  have h : Same [.part, .cause, .cu, .ru, .ce, .port]
      { s with dl := { s.dl with valid := true, copy := load.copy, loadedOnce := true, phase := .idle } }
      (s.handedOver load) := by simp [State.handedOver]
  exact (h.get .dl).symm

theorem handedOver_ce (load : Load) (s : State) : (s.handedOver load).ce =
    (settleCombination load.copy.header
      { s with dl := { s.dl with valid := true, copy := load.copy, loadedOnce := true, phase := .idle } }).ce := rfl

/-- The Crescendo Unit takes program, images and ends by the load cause (R15, R84). -/
theorem handedOver_cu (load : Load) (s : State) : (s.handedOver load).cu = { s.cu with
    signal := .none
    q := 0
    stage := 0
    program := some (s.activeProgram load.copy.header)
    stageCount := load.program.length
    images := stageImages 0 load.program
    lo := if s.dl.loadCause = some .soft then s.cu.lo else load.copy.header.lo
    hi := if s.dl.loadCause = some .soft then s.cu.hi else load.copy.header.hi
    loading := none } := by
  generalize hw : ({ s with dl := { s.dl with valid := true, copy := load.copy, loadedOnce := true, phase := .idle } } : State) = w
  have h : Same [.ce, .port] w (settleCombination load.copy.header w) := by simp
  have hcu : w.cu = (settleCombination load.copy.header w).cu := h.get .cu
  have hdl : w.dl = (settleCombination load.copy.header w).dl := h.get .dl
  have hs : s.cu = w.cu := hw ▸ rfl
  have hcause : s.dl.loadCause = w.dl.loadCause := hw ▸ rfl
  rw [State.handedOver, hw]
  show (settleCrescendo load (settleCombination load.copy.header w)).cu = _
  unfold settleCrescendo State.activeProgram
  rw [← hcu, ← hdl, hs, hcause]
  rfl

/-- The last program read whole hands the load over (R10, R15). -/
theorem takeLoadField_last {load : Load} {read : ProgramRead} {stages : List (List Nat)} {v : Nat}
    (hp : load.place = .program 3 read) (ht : read.take load.copy.header.stops v = .whole stages) (s : State) :
    takeLoadField load v s = openCensusRound (s.handedOver (load.keeping s 3 stages)) := by
  rw [takeLoadField_program hp, ht]
  show endProgram load 3 stages s = _
  rw [endProgram_eq, if_neg (by decide), handOver_eq]

/-- Settles O21: the last program read whole ends in `handedOver`, whose values are settled by the load cause, and in
the first census round. -/
theorem handOverByCause : Obligations.HandOverByCause := by
  intro s load read stages h active i hphase hplace htake hh hactive hkind hstate
  obtain ⟨t, ht, -, hv, -⟩ := descriptionReadCompletion_spec hphase rfl
  rw [takeLoadField_last hplace htake] at hv
  have hus : Same [.mem, .port] s (finishRead .dl s) := by simp
  generalize finishRead .dl s = u at hus hv
  have hdl : s.dl = u.dl := hus.get .dl
  have hce : s.ce = u.ce := hus.get .ce
  have hcu : s.cu = u.cu := hus.get .cu
  have hlc : s.lc = u.lc := hus.get .lc
  have hclock : s.clock = u.clock := hus.get .clock
  have hjw : s.jw = u.jw := hus.get .jw
  have hrs : s.rs = u.rs := hus.get .rs
  have hact : u.activeProgram load.copy.header = active := by
    rw [activeProgram_of_same hus, hactive, hh]
    rfl
  generalize hl : load.keeping u 3 stages = kept at hv
  have hcopy : kept.copy = load.copy := hl ▸ rfl
  have hprogram : kept.program = if active = 3 then stages else load.program := by
    rw [← hl, ← hact]
    simp [Load.keeping, eq_comm]
  have hsame := handedOver_same kept u
  have hvdl := handedOver_dl kept u
  have hvlc : u.lc = (u.handedOver kept).lc := hsame.get .lc
  have hvcu := handedOver_cu kept u
  have hvclock : u.clock = (u.handedOver kept).clock := hsame.get .clock
  have hvjw : u.jw = (u.handedOver kept).jw := hsame.get .jw
  have hvrs : u.rs = (u.handedOver kept).rs := hsame.get .rs
  have hvpart : (u.handedOver kept).part = .census := rfl
  have hvcause : (u.handedOver kept).hasCause .state = true := hasCause_of_cause (f := .state) rfl
  obtain ⟨hlevel, henable, hscope⟩ := settleCombination_ce kept.copy.header
    { u with dl := { u.dl with valid := true, copy := kept.copy, loadedOnce := true, phase := .idle } }
  rw [← handedOver_ce] at hlevel henable hscope
  obtain ⟨j, hj⟩ := openCensusRound_of_unknown (s := u.handedOver kept) (i := i) rfl
    (by rw [State.desc, hvdl, hcopy]; exact hkind) (by rw [← hvlc, ← hlc]; exact hstate)
  rw [hj] at hv
  generalize u.handedOver kept = v at *
  have tcu : t.visible.cu = v.visible.cu := (congrArg (fun x : State => x.cu) hv : _)
  have tlc : t.visible.lc = _ := (congrArg (fun x : State => x.lc) hv : _)
  have tce : t.ce = v.ce := (congrArg (fun x : State => x.ce) hv : _)
  rw [hcopy, ← hdl, ← hce, ← hh] at hlevel henable hscope
  rw [hcopy, hprogram, hact, ← hdl, ← hcu, ← hh] at hvcu
  rw [hcopy, ← hdl] at hvdl
  refine ⟨t, ht, (congrArg State.part hv).trans hvpart, ?_, (congrArg State.dl hv).trans hvdl, ?_, ?_, ?_,
    (congrArg Crescendo.program tcu).trans (congrArg Crescendo.program hvcu), (congrArg Crescendo.images tcu).trans (congrArg Crescendo.images hvcu),
    (congrArg Crescendo.stageCount tcu).trans (congrArg Crescendo.stageCount hvcu), (congrArg Crescendo.lo tcu).trans (congrArg Crescendo.lo hvcu),
    (congrArg Crescendo.hi tcu).trans (congrArg Crescendo.hi hvcu), (congrArg Crescendo.signal tcu).trans (congrArg Crescendo.signal hvcu),
    (congrArg Crescendo.q tcu).trans (congrArg Crescendo.q hvcu), (congrArg Crescendo.stage tcu).trans (congrArg Crescendo.stage hvcu),
    (congrArg Crescendo.loading tcu).trans (congrArg Crescendo.loading hvcu), congrArg Link.inRound tlc, ?_,
    ⟨j, congrArg Link.exchange tlc⟩, (congrArg State.jw hv).trans (hjw.trans hvjw).symm,
    (congrArg State.rs hv).trans (hrs.trans hvrs).symm, (congrArg State.clock hv).trans (hclock.trans hvclock).symm⟩
  · rw [State.hasCause, show t.cause = v.cause from (congrArg State.cause hv : _)]
    exact hvcause
  · rw [tce, hlevel]
  · rw [tce, henable]
  · rw [tce, hscope]
  · refine (congrArg Link.due tlc).trans ?_
    show v.clock + BitVec.ofNat 32 v.dl.copy.header.roundPeriod = _
    rw [← hvclock, ← hclock, hvdl, hh]

/-! ### The report of a failed check (R13) -/

/-! ### The memory port serves what waits (R158) -/

theorem Port.waiting_eq_sum (p : Port) : p.waiting =
    (p.get .dl).queue.length + (p.get .ce).queue.length + (p.get .sq).queue.length + (p.get .cu).queue.length +
      (p.get .ru).queue.length + (p.get .ms).queue.length + (p.get .lc).queue.length + (p.get .rs).queue.length +
      (p.get .jw).queue.length := rfl

/-- A block in whose queue an access waits is granted the port in its turn: some block is. -/
theorem mem_rotation (b c : Block) : c ∈ b.rotation := by cases b <;> cases c <;> decide

theorem granted_eq_none_iff (p : Port) : p.granted = none ↔ ∀ b, (p.get b).queue = [] := by
  unfold Port.granted
  rw [List.find?_eq_none]
  simp [mem_rotation]

theorem queue_ne_nil_of_granted {p : Port} {b : Block} (h : p.granted = some b) : (p.get b).queue ≠ [] := by
  have := List.find?_some h
  simpa using this

/-- The port's side of the block it serves: its first access is gone. -/
theorem serveBlock_queue (b c : Block) (s : State) : ((serveBlock b s).port.get c).queue =
    if c = b then (s.port.get b).queue.tail else (s.port.get c).queue := by
  unfold serveBlock
  by_cases h : c = b
  · subst h
    rw [if_pos rfl]
    split <;> rename_i hq <;> simp [hq]
  · rw [if_neg h]
    split <;> simp [Port.get_put_of_ne _ _ h]

theorem serveBlock_waiting {b : Block} {s : State} (h : (s.port.get b).queue ≠ []) :
    (serveBlock b s).port.waiting + 1 = s.port.waiting := by
  have hl := List.length_pos_iff.2 h
  rw [Port.waiting_eq_sum, Port.waiting_eq_sum]
  simp only [serveBlock_queue]
  cases b <;> simp <;> omega

/-- The port serves a block until its test passes, where it passes once nothing waits at all. -/
theorem serveUntil_done {b : Block} {done : BlockPort → Bool} (hdone : ∀ q, q.queue = [] → done q = true) (n : Nat)
    (s : State) (h : s.port.waiting ≤ n) : done ((serveUntil b done n s).port.get b) = true := by
  induction n generalizing s with
  | zero =>
    refine hdone _ ?_
    rw [Port.waiting_eq_sum] at h
    exact List.length_eq_zero_iff.1 (by cases b <;> simp only [serveUntil] <;> omega)
  | succ n ih =>
    unfold serveUntil
    split
    · assumption
    · split
      · rename_i u hu
        obtain ⟨c, hc, rfl⟩ := Option.map_eq_some_iff.1 hu
        have := serveBlock_waiting (queue_ne_nil_of_granted hc)
        exact ih _ (by omega)
      · rename_i hnone
        exact hdone _ ((granted_eq_none_iff s.port).1 (Option.map_eq_none_iff.1 hnone) b)

/-- Once a block's writes of a purpose have completed, none waits. -/
theorem finishWrite_done (b : Block) (p : Purpose) (s : State) :
    ((finishWrite b p s).port.get b).writeDone p = true :=
  serveUntil_done (fun q hq => by simp [BlockPort.writeDone, hq]) _ s (le_refl _)

/-- Whether the report's end waits for the result of a RELOAD's cell. -/
theorem endReport_waits {s : State} {c : Nat} (h : s.completionWaits c = true) :
    endReport (some c) s = { s with dl := { s.dl with phase := .awaitingCell c } } := if_pos h

theorem endReport_ends {s : State} {cell : Option Nat} (h : ∀ c, cell = some c → s.completionWaits c = false) :
    endReport cell s = changePart .descError { s with dl := { s.dl with phase := .idle } } := by
  cases cell with
  | none => rfl
  | some c =>
    exact if_neg (by simp [h c rfl])

/-- Settles O22: the report is written, and `endReport` decides by the result of the reload cell. -/
theorem reportEntersDescError : Obligations.ReportEntersDescError := by
  intro s cell hphase
  obtain ⟨t, ht, hv, hport⟩ := finish_spec s (endReport cell (finishWrite .dl .report s))
  have hexec : exec .errorReportWriteCompletion s = finish s (endReport cell (finishWrite .dl .report s)) := by
    show execErrorReportWriteCompletion s = _
    unfold execErrorReportWriteCompletion
    rw [hphase]
  have hdone := finishWrite_done .dl .report s
  have hus : Same [.mem, .port] s (finishWrite .dl .report s) := by simp
  generalize finishWrite .dl .report s = u at *
  have hdl : s.dl = u.dl := hus.get .dl
  have hrs : s.rs = u.rs := hus.get .rs
  have hwaits : ∀ c, u.completionWaits c = s.completionWaits c := fun c => by
    rw [State.completionWaits, State.completionWaits, hrs]
  have hend : Same [.dl, .part, .cause] u (endReport cell u) := by simp
  refine ⟨t, hexec.trans ht, ?_, ?_, fun c hc hw => ?_, fun hw => ?_⟩
  · exact (congrArg State.mem hv).trans (hend.get .mem).symm
  · have hq : (endReport cell u).port = u.port := (hend.get .port).symm
    rw [hport .dl rfl, hq]
    exact hdone
  · rw [hc, endReport_waits (by rw [hwaits, hw])] at hv
    refine ⟨by rw [hdl]; exact congrArg State.dl hv, hv ▸ Same.to_visible (qs := [.mem, .dl, .port]) ?_⟩
    exact (same_dl (by decide) _).2 (hus.mono (by decide))
  · rw [endReport_ends (fun c hc => by rw [hwaits, hw c hc])] at hv
    refine ⟨congrArg State.part hv, hasCause_of_cause (f := .state) (congrArg State.cause hv), ?_, ?_⟩
    · rw [hdl]
      exact congrArg State.dl hv
    · exact hv ▸ Same.to_visible (qs := [.mem, .dl, .part, .cause, .port])
        ((changePart_same _ (by decide)).2 ((same_dl (by decide) _).2 (hus.mono (by decide))))

end Sys2Proof.Machine

/-! ## What the end of a command makes of the mirror groups, and what the blocks wait with after it -/

namespace Sys2Proof.Machine

/-! ### Accesses that are kept, and the accesses of a write (R157) -/

@[simp] theorem keepAccesses_get_self (b : Block) (keep : Access → Bool) (s : State) :
    (keepAccesses b keep s).port.get b = ⟨(s.port.get b).queue.filter keep, []⟩ := Port.get_put _ _ _

@[simp] theorem keepAccesses_get_ne {b c : Block} (h : c ≠ b) (keep : Access → Bool) (s : State) :
    (keepAccesses b keep s).port.get c = s.port.get c := Port.get_put_of_ne _ _ h

@[simp] theorem startRead_get_ne {b c : Block} (h : c ≠ b) (a n : Nat) (s : State) :
    (startRead b a n s).port.get c = s.port.get c := Port.get_put_of_ne _ _ h

theorem writeAccesses_append (p : Purpose) (a : Nat) (l m : List Byte) :
    writeAccesses p a (l ++ m) = writeAccesses p a l ++ writeAccesses p (a + l.length) m := by
  induction l generalizing a with
  | nil => rfl
  | cons b l ih => simp [writeAccesses, ih, Nat.add_assoc, Nat.add_comm 1]

/-- An access of a write of bytes writes one of their addresses, for their purpose. -/
theorem mem_writeAccesses {p : Purpose} {a : Nat} {bytes : List Byte} {x : Access} (h : x ∈ writeAccesses p a bytes) :
    ∃ k v, x = .write p k v ∧ a ≤ k ∧ k < a + bytes.length := by
  induction bytes generalizing a with
  | nil => simp [writeAccesses] at h
  | cons b bytes ih =>
    rcases List.mem_cons.1 h with rfl | h
    · exact ⟨a, b, rfl, le_refl a, by simp⟩
    · obtain ⟨k, v, hx, hlo, hhi⟩ := ih h
      exact ⟨k, v, hx, by omega, by rw [List.length_cons]; omega⟩

/-- The writes of a result lie in the 16 bytes of its cell (R140, R162). -/
theorem mem_completionAccesses {c : Completion} {x : Access} (h : x ∈ completionAccesses c) :
    ∃ k v, x = .write .complete k v ∧ 0x011000 + 16 * c.cell ≤ k ∧ k < 0x011000 + 16 * c.cell + 16 := by
  have hbase : cellAddr c.cell = 0x011000 + 16 * c.cell := rfl
  simp only [completionAccesses, List.mem_append] at h
  obtain ((h | h) | h) | h := h <;>
    obtain ⟨k, v, hx, hlo, hhi⟩ := mem_writeAccesses h <;>
    simp only [bytesLE_length, List.length_cons, List.length_nil] at hhi <;>
    exact ⟨k, v, hx, by omega, by omega⟩

/-! ### The updates that begin (R36, R83, R116, R134) -/

/-- A block's side of the port once an update has begun: the full update abandons what the block had to write. -/
def BlockPort.updating (q : BlockPort) (full : Bool) (accesses : List Access) : BlockPort :=
  ⟨(if full then [] else q.queue) ++ accesses, if full then [] else q.buf⟩

theorem enqueue_abandon_get (b : Block) (full : Bool) (as : List Access) (s : State) :
    (enqueueAccesses b as (abandonIfFull b full s)).port.get b = (s.port.get b).updating full as := by
  cases full <;> simp [abandonIfFull, BlockPort.updating]

/-- What begins an update touches only the port behind what the owner holds. -/
theorem enqueue_abandon_same (b : Block) (full : Bool) (as : List Access) (s : State) :
    Same [.port] s (enqueueAccesses b as (abandonIfFull b full s)) := by simp

theorem enqueue_abandon_get_ne {b c : Block} (h : c ≠ b) (full : Bool) (as : List Access) (s : State) :
    (enqueueAccesses b as (abandonIfFull b full s)).port.get c = s.port.get c := by
  rw [enqueueAccesses_get_ne h, abandonIfFull_get_ne h]

theorem beginImageUpdate_spec (s : State) :
    (beginImageUpdate s).ru = (if s.ru.mirror.begins then
      { s.ru with mirror := s.ru.mirror.begun s.imageValues } else s.ru) ∧
    (beginImageUpdate s).port.get .ru = (if s.ru.mirror.begins then
      (s.port.get .ru).updating s.ru.mirror.full (updateAccesses 0x010000 (oddCount s.ru.mirror.count)
        (imageWrites s.ru.mirror.full s.ru.mirror.shadow s.imageValues)) else s.port.get .ru) ∧
    ∀ c : Block, c ≠ .ru → (beginImageUpdate s).port.get c = s.port.get c := by
  cases hb : s.ru.mirror.begins with
  | false =>
    rw [show beginImageUpdate s = s from if_neg (by simp [hb])]
    exact ⟨rfl, rfl, fun _ _ => rfl⟩
  | true =>
    rw [show beginImageUpdate s = _ from if_pos hb]
    exact ⟨(Same.get (enqueue_abandon_same _ _ _ _) .ru).symm, enqueue_abandon_get .., fun _ h => enqueue_abandon_get_ne h ..⟩

theorem beginCrescendoUpdate_spec (s : State) :
    (beginCrescendoUpdate s).cu = (if s.cu.mirror.begins then
      { s.cu with mirror := s.cu.mirror.begun s.crescendoValues } else s.cu) ∧
    (beginCrescendoUpdate s).port.get .cu = (if s.cu.mirror.begins then
      (s.port.get .cu).updating s.cu.mirror.full (updateAccesses 0x010180 (oddCount s.cu.mirror.count)
        (crescendoWrites s.cu.mirror.full s.cu.mirror.shadow s.crescendoValues)) else s.port.get .cu) ∧
    ∀ c : Block, c ≠ .cu → (beginCrescendoUpdate s).port.get c = s.port.get c := by
  cases hb : s.cu.mirror.begins with
  | false =>
    rw [show beginCrescendoUpdate s = s from if_neg (by simp [hb])]
    exact ⟨rfl, rfl, fun _ _ => rfl⟩
  | true =>
    rw [show beginCrescendoUpdate s = _ from if_pos hb]
    exact ⟨(Same.get (enqueue_abandon_same _ _ _ _) .cu).symm, enqueue_abandon_get .., fun _ h => enqueue_abandon_get_ne h ..⟩

theorem beginMotionUpdate_spec (s : State) :
    (beginMotionUpdate s).ms = (if s.ms.mirror.begins then
      { s.ms with mirror := s.ms.mirror.begun s.motionValues, showing := s.ms.declared, declared := false } else s.ms) ∧
    (beginMotionUpdate s).port.get .ms = (if s.ms.mirror.begins then
      (s.port.get .ms).updating s.ms.mirror.full (updateAccesses 0x010100 (oddCount s.ms.mirror.count)
        (motionWrites s.ms.mirror.full s.ms.mirror.shadow s.motionValues)) else s.port.get .ms) ∧
    ∀ c : Block, c ≠ .ms → (beginMotionUpdate s).port.get c = s.port.get c := by
  cases hb : s.ms.mirror.begins with
  | false =>
    rw [show beginMotionUpdate s = s from if_neg (by simp [hb])]
    exact ⟨rfl, rfl, fun _ _ => rfl⟩
  | true =>
    rw [show beginMotionUpdate s = _ from if_pos hb]
    exact ⟨(Same.get (enqueue_abandon_same _ _ _ _) .ms).symm, enqueue_abandon_get .., fun _ h => enqueue_abandon_get_ne h ..⟩

theorem beginLinkUpdate_spec (s : State) :
    (beginLinkUpdate s).lc = (if s.lc.mirror.begins then
      { s.lc with mirror := s.lc.mirror.begun s.linkValues, showing := s.lc.changed, changed := false } else s.lc) ∧
    (beginLinkUpdate s).port.get .lc = (if s.lc.mirror.begins then
      (s.port.get .lc).updating s.lc.mirror.full (updateAccesses 0x010200 (oddCount s.lc.mirror.count)
        (linkWrites s.lc.mirror.full s.lc.mirror.shadow 0 s.linkValues)) else s.port.get .lc) ∧
    ∀ c : Block, c ≠ .lc → (beginLinkUpdate s).port.get c = s.port.get c := by
  cases hb : s.lc.mirror.begins with
  | false =>
    rw [show beginLinkUpdate s = s from if_neg (by simp [hb])]
    exact ⟨rfl, rfl, fun _ _ => rfl⟩
  | true =>
    rw [show beginLinkUpdate s = _ from if_pos hb]
    exact ⟨(Same.get (enqueue_abandon_same _ _ _ _) .lc).symm, enqueue_abandon_get .., fun _ h => enqueue_abandon_get_ne h ..⟩

/-! #### All four together: each looks at its own group alone -/

theorem beginUpdates_ru (s : State) : (beginUpdates s).ru = (beginImageUpdate s).ru ∧
    (beginUpdates s).port.get .ru = (beginImageUpdate s).port.get .ru := by
  have h : Same [.cu, .ms, .lc, .port] (beginImageUpdate s) (beginUpdates s) := by simp [beginUpdates]
  refine ⟨(h.get .ru).symm, ?_⟩
  rw [beginUpdates, (beginLinkUpdate_spec _).2.2 _ (by decide), (beginMotionUpdate_spec _).2.2 _ (by decide),
    (beginCrescendoUpdate_spec _).2.2 _ (by decide)]

theorem beginUpdates_cu (s : State) : (beginUpdates s).cu = (beginCrescendoUpdate s).cu ∧
    (beginUpdates s).port.get .cu = (beginCrescendoUpdate s).port.get .cu := by
  have h : Same [.ms, .lc, .port] (beginCrescendoUpdate (beginImageUpdate s)) (beginUpdates s) := by simp [beginUpdates]
  have own : s.cu = (beginImageUpdate s).cu := Same.get (ps := [.ru, .port]) (by simp) .cu
  have values : s.crescendoValues = (beginImageUpdate s).crescendoValues := by
    unfold State.crescendoValues
    rw [own]
  have queue := (beginImageUpdate_spec s).2.2 .cu (by decide)
  constructor
  · rw [show (beginUpdates s).cu = _ from (h.get .cu).symm, (beginCrescendoUpdate_spec _).1,
      (beginCrescendoUpdate_spec s).1, ← own, ← values]
  · rw [beginUpdates, (beginLinkUpdate_spec _).2.2 _ (by decide), (beginMotionUpdate_spec _).2.2 _ (by decide),
      (beginCrescendoUpdate_spec _).2.1, (beginCrescendoUpdate_spec s).2.1, ← own, ← values, queue]

theorem beginUpdates_ms (s : State) : (beginUpdates s).ms = (beginMotionUpdate s).ms ∧
    (beginUpdates s).port.get .ms = (beginMotionUpdate s).port.get .ms := by
  have h : Same [.lc, .port] (beginMotionUpdate (beginCrescendoUpdate (beginImageUpdate s))) (beginUpdates s) := by
    simp [beginUpdates]
  have own : s.ms = (beginCrescendoUpdate (beginImageUpdate s)).ms := Same.get (ps := [.ru, .cu, .port]) (by simp) .ms
  have values : s.motionValues = (beginCrescendoUpdate (beginImageUpdate s)).motionValues := by
    unfold State.motionValues
    rw [own]
  have queue : (beginCrescendoUpdate (beginImageUpdate s)).port.get .ms = s.port.get .ms := by
    rw [(beginCrescendoUpdate_spec _).2.2 _ (by decide), (beginImageUpdate_spec _).2.2 _ (by decide)]
  constructor
  · rw [show (beginUpdates s).ms = _ from (h.get .ms).symm, (beginMotionUpdate_spec _).1,
      (beginMotionUpdate_spec s).1, ← own, ← values]
  · rw [beginUpdates, (beginLinkUpdate_spec _).2.2 _ (by decide), (beginMotionUpdate_spec _).2.1,
      (beginMotionUpdate_spec s).2.1, ← own, ← values, queue]

theorem beginUpdates_lc (s : State) : (beginUpdates s).lc = (beginLinkUpdate s).lc ∧
    (beginUpdates s).port.get .lc = (beginLinkUpdate s).port.get .lc := by
  have own : s.lc = (beginMotionUpdate (beginCrescendoUpdate (beginImageUpdate s))).lc :=
    Same.get (ps := [.ru, .cu, .ms, .port]) (by simp) .lc
  have values : s.linkValues = (beginMotionUpdate (beginCrescendoUpdate (beginImageUpdate s))).linkValues := by
    unfold State.linkValues
    rw [own]
  have queue : (beginMotionUpdate (beginCrescendoUpdate (beginImageUpdate s))).port.get .lc = s.port.get .lc := by
    rw [(beginMotionUpdate_spec _).2.2 _ (by decide), (beginCrescendoUpdate_spec _).2.2 _ (by decide),
      (beginImageUpdate_spec _).2.2 _ (by decide)]
  constructor
  · rw [beginUpdates, (beginLinkUpdate_spec _).1, (beginLinkUpdate_spec s).1, ← own, ← values]
  · rw [beginUpdates, (beginLinkUpdate_spec _).2.1, (beginLinkUpdate_spec s).2.1, ← own, ← values, queue]

/-! #### The groups at the end of a command -/

section
variable {before s t : State} (hr : s.inReset = false) (h : finish before s = .next t)
include hr h

theorem next_eq_beginUpdates : t = beginUpdates (markStale before s) := by
  rw [finish_eq, hr] at h
  cases h
  rfl

/-- The image group at the end of a command: an update begins with the values of the end, or the group stands (R36). -/
theorem finish_image {m : Mirror _} (hm : m = s.ru.mirror.mark (before.imageValues == s.imageValues)) :
    (m.begins = true → t.ru.mirror = m.begun t.imageValues ∧
      t.port.get .ru = (s.port.get .ru).updating m.full (updateAccesses 0x010000 (oddCount m.count)
        (imageWrites m.full m.shadow t.imageValues))) ∧
    (m.begins = false → t.ru.mirror = m ∧ t.port.get .ru = s.port.get .ru) := by
  have hm' : (markStale before s).ru.mirror = m := hm.symm
  have ht := next_eq_beginUpdates hr h
  have hv : t.imageValues = s.imageValues := (congrArg State.imageValues (finish_visible h) : _)
  obtain ⟨hown, hport, -⟩ := beginImageUpdate_spec (markStale before s)
  rw [← (beginUpdates_ru _).1, ← ht, hm'] at hown
  rw [← (beginUpdates_ru _).2, ← ht, hm'] at hport
  rw [hv, hport]
  constructor <;> intro hb
  · rw [if_pos hb] at hown
    exact ⟨congrArg (fun x => x.mirror) hown, if_pos hb⟩
  · have hb' := Bool.eq_false_iff.1 hb
    rw [if_neg hb'] at hown
    exact ⟨(congrArg (fun x => x.mirror) hown).trans hm', if_neg hb'⟩

/-- The crescendo group at the end of a command: an update begins with the values of the end, or the group stands (R83). -/
theorem finish_crescendo {m : Mirror _} (hm : m = s.cu.mirror.mark (before.crescendoValues.marking == s.crescendoValues.marking)) :
    (m.begins = true → t.cu.mirror = m.begun t.crescendoValues ∧
      t.port.get .cu = (s.port.get .cu).updating m.full (updateAccesses 0x010180 (oddCount m.count)
        (crescendoWrites m.full m.shadow t.crescendoValues))) ∧
    (m.begins = false → t.cu.mirror = m ∧ t.port.get .cu = s.port.get .cu) := by
  have hm' : (markStale before s).cu.mirror = m := hm.symm
  have ht := next_eq_beginUpdates hr h
  have hv : t.crescendoValues = s.crescendoValues := (congrArg State.crescendoValues (finish_visible h) : _)
  obtain ⟨hown, hport, -⟩ := beginCrescendoUpdate_spec (markStale before s)
  rw [← (beginUpdates_cu _).1, ← ht, hm'] at hown
  rw [← (beginUpdates_cu _).2, ← ht, hm'] at hport
  rw [hv, hport]
  constructor <;> intro hb
  · rw [if_pos hb] at hown
    exact ⟨congrArg (fun x => x.mirror) hown, if_pos hb⟩
  · have hb' := Bool.eq_false_iff.1 hb
    rw [if_neg hb'] at hown
    exact ⟨(congrArg (fun x => x.mirror) hown).trans hm', if_neg hb'⟩

/-- The motion group at the end of a command: an update begins with the values of the end, or the group stands (R116). -/
theorem finish_motion {m : Mirror _} (hm : m = s.ms.mirror.mark (before.motionValues == s.motionValues)) :
    (m.begins = true → t.ms.mirror = m.begun t.motionValues ∧
      t.port.get .ms = (s.port.get .ms).updating m.full (updateAccesses 0x010100 (oddCount m.count)
        (motionWrites m.full m.shadow t.motionValues))) ∧
    (m.begins = false → t.ms.mirror = m ∧ t.port.get .ms = s.port.get .ms) := by
  have hm' : (markStale before s).ms.mirror = m := hm.symm
  have ht := next_eq_beginUpdates hr h
  have hv : t.motionValues = s.motionValues := (congrArg State.motionValues (finish_visible h) : _)
  obtain ⟨hown, hport, -⟩ := beginMotionUpdate_spec (markStale before s)
  rw [← (beginUpdates_ms _).1, ← ht, hm'] at hown
  rw [← (beginUpdates_ms _).2, ← ht, hm'] at hport
  rw [hv, hport]
  constructor <;> intro hb
  · rw [if_pos hb] at hown
    exact ⟨congrArg (fun x => x.mirror) hown, if_pos hb⟩
  · have hb' := Bool.eq_false_iff.1 hb
    rw [if_neg hb'] at hown
    exact ⟨(congrArg (fun x => x.mirror) hown).trans hm', if_neg hb'⟩

/-- The link group at the end of a command: an update begins with the values of the end, or the group stands (R134). -/
theorem finish_link {m : Mirror _} (hm : m = s.lc.mirror.mark (before.linkValues == s.linkValues)) :
    (m.begins = true → t.lc.mirror = m.begun t.linkValues ∧ t.lc.showing = s.lc.changed ∧
      t.port.get .lc = (s.port.get .lc).updating m.full (updateAccesses 0x010200 (oddCount m.count)
        (linkWrites m.full m.shadow 0 t.linkValues))) ∧
    (m.begins = false → t.lc.mirror = m ∧ t.port.get .lc = s.port.get .lc) := by
  have hm' : (markStale before s).lc.mirror = m := hm.symm
  have ht := next_eq_beginUpdates hr h
  have hv : t.linkValues = s.linkValues := (congrArg State.linkValues (finish_visible h) : _)
  obtain ⟨hown, hport, -⟩ := beginLinkUpdate_spec (markStale before s)
  rw [← (beginUpdates_lc _).1, ← ht, hm'] at hown
  rw [← (beginUpdates_lc _).2, ← ht, hm'] at hport
  rw [hv, hport]
  constructor <;> intro hb
  · rw [if_pos hb] at hown
    exact ⟨congrArg (fun x => x.mirror) hown, congrArg Link.showing hown, if_pos hb⟩
  · have hb' := Bool.eq_false_iff.1 hb
    rw [if_neg hb'] at hown
    exact ⟨(congrArg (fun x => x.mirror) hown).trans hm', if_neg hb'⟩

end

end Sys2Proof.Machine

/-! ## The entry to LOADING by a CONTROL write (R1, R145, R154) -/

namespace Sys2Proof.Machine

/-! ### CONTROL writes (R154) -/

/-- The state with RUN and ATTN_EN as a CONTROL write sets them. -/
def State.withControl (s : State) (data : BitVec 16) : State :=
  { s with run := data.getLsbD 0, attnEn := data.getLsbD 2 }

theorem withControl_same (s : State) (data : BitVec 16) : Same [.run, .attnEn] s (s.withControl data) := by
  intro p hp
  cases p
  case run => exact absurd (by decide) hp
  case attnEn => exact absurd (by decide) hp
  all_goals rfl

section
variable {s : State} {data : BitVec 16} (hr : s.inReset = false)
include hr

theorem registerWrite_control : registerWrite 2 data s = controlWrite data s := by
  unfold registerWrite
  rw [hr]
  rfl

/-- A write with RUN clear (R154). -/
theorem exec_runClear (h0 : data.getLsbD 0 = false) :
    exec (.runClear data) s = finish s (halt (s.withControl data)) := by
  show finish s (registerWrite 2 data s) = _
  rw [registerWrite_control hr]
  unfold controlWrite
  dsimp only
  have hrun : controlRun data = false := h0
  rw [hrun]
  show finish s (halt { s with run := false, attnEn := _ }) = _
  rw [State.withControl, h0]
  rfl

/-- A write with RUN and RESET set (R154). -/
theorem registerWrite_reset (h0 : data.getLsbD 0 = true) (h1 : data.getLsbD 1 = true) :
    registerWrite 2 data s = enterLoading .soft (completeReload .abandoned (s.withControl data)) := by
  rw [registerWrite_control hr]
  unfold controlWrite
  dsimp only
  rw [if_pos (show controlRun data = true from h0), if_pos (show controlReset data = true from h1)]
  rfl

/-- A write with RUN set and RESET clear in HALTED or DESC_ERROR (R154). -/
theorem registerWrite_start (h0 : data.getLsbD 0 = true) (h1 : data.getLsbD 1 = false)
    (hp : s.part = .halted ∨ s.part = .descError) :
    registerWrite 2 data s = enterLoading .soft (s.withControl data) := by
  rw [registerWrite_control hr]
  unfold controlWrite
  dsimp only
  rw [if_pos (show controlRun data = true from h0),
    if_neg (Bool.eq_false_iff.1 (show controlReset data = false from h1))]
  show (match s.part with
    | .halted | .descError => enterLoading .soft (s.withControl data)
    | .loading | .census | .running => s.withControl data) = enterLoading .soft (s.withControl data)
  generalize s.withControl data = w
  obtain hp | hp := hp <;> rw [hp]

end

/-! ### The Request Scanner (R137, R140, R145) -/

/-- The outstanding flags once a sweep has ended early: a cell whose ACCEPTED is not written is POSTED again (R137). -/
def State.flagsAfterSweep (s : State) : BitVec 32 :=
  match s.rs.sweep with
  | .accepting c _ => if (s.port.get .rs).writeDone .accept then s.rs.outstanding else setBit s.rs.outstanding c false
  | _ => s.rs.outstanding

theorem endSweep_rs (s : State) :
    (endSweep s).rs = { s.rs with sweep := .idle, scanPending := false, outstanding := s.flagsAfterSweep } := rfl

theorem complete_rs (c : Nat) (r : RequestResult) (v : Nat) (s : State) :
    (complete c r v s).rs = { s.rs with completions := s.rs.completions ++ [⟨c, r, v, s.clock⟩] } :=
  congrArg State.rs (complete_visible c r v s)

theorem complete_clock (c : Nat) (r : RequestResult) (v : Nat) (s : State) : (complete c r v s).clock = s.clock :=
  (congrArg (fun x : State => x.clock) (complete_visible c r v s) : _)

/-- Several results of one kind join the completion list in their order (R140). -/
theorem foldl_complete_rs (r : RequestResult) (v : Nat) (cells : List Nat) (s : State) :
    (cells.foldl (fun t c => complete c r v t) s).rs = { s.rs with
      completions := s.rs.completions ++ cells.map (fun c => ⟨c, r, v, s.clock⟩) } := by
  induction cells generalizing s with
  | nil => simp
  | cons c cells ih => simp [ih, complete_rs, complete_clock]

/-- The Request Scanner at an entry to LOADING: the sweep ends, and the cells that have no result are ABANDONED in
ascending order (R145). -/
theorem loadRequests_rs (s : State) : (loadRequests s).rs = { s.rs with
    sweep := .idle
    scanPending := false
    outstanding := s.flagsAfterSweep
    completions := s.rs.completions ++
      ((List.range 32).filter (fun c => s.flagsAfterSweep.getLsbD c && s.rs.reloadCell != some c &&
        !s.rs.completions.any (fun x => x.cell == c))).map (fun c => ⟨c, .abandoned, 0, s.clock⟩) } := by
  unfold loadRequests
  rw [foldl_complete_rs, endSweep_rs]
  rfl

theorem enterLoading_rs (cause : LoadCause) (s : State) :
    (enterLoading cause s).rs = (loadRequests { s with cs := {} }).rs := by
  have h : Same [.part, .cause, .dl, .jw, .lc, .ms, .ru, .cu, .sq, .ce, .port] (loadRequests { s with cs := {} })
      (enterLoading cause s) := by simp [enterLoading]
  exact (h.get .rs).symm

/-- The reload cell of a load that ends is completed (R144). -/
theorem completeReload_rs (r : RequestResult) (s : State) : (completeReload r s).rs = { s.rs with
    reloadCell := none
    completions := s.rs.completions ++ (match s.rs.reloadCell with
      | some c => [⟨c, r, 0, s.clock⟩]
      | none => []) } := by
  cases hc : s.rs.reloadCell with
  | none =>
    have hs : completeReload r s = s := by
      unfold completeReload
      rw [hc]
    simp only [hs, List.append_nil, ← hc]
  | some c =>
    have hs : completeReload r s = complete c r 0 { s with rs := { s.rs with reloadCell := none } } := by
      unfold completeReload
      rw [hc]
    rw [hs, complete_rs]

/-- The writes of a result are no ACCEPTED writes. -/
theorem writeDone_accept_complete (c : Nat) (r : RequestResult) (v : Nat) (s : State) :
    ((complete c r v s).port.get .rs).writeDone .accept = (s.port.get .rs).writeDone .accept := by
  unfold complete
  dsimp only
  split
  · have h : (completionAccesses ⟨c, r, v, s.clock⟩).all (fun a => !a.isFor .accept) = true := by
      refine List.all_eq_true.2 (fun x hx => ?_)
      obtain ⟨k, b, rfl, -⟩ := mem_completionAccesses hx
      rfl
    rw [enqueueAccesses_get_self, BlockPort.writeDone, List.all_append, h, Bool.and_true]
    rfl
  · rfl

theorem flagsAfterSweep_completeReload (r : RequestResult) (s : State) :
    (completeReload r s).flagsAfterSweep = s.flagsAfterSweep := by
  unfold completeReload
  split
  · rename_i c _
    unfold State.flagsAfterSweep
    rw [writeDone_accept_complete, complete_rs]
  · rfl

/-- What the end of a command leaves of the Request Scanner. -/
theorem finish_rs {before s t : State} (h : finish before s = .next t) : t.rs = s.rs :=
  ((finish_same h).get .rs).symm

/-- The results after an entry to LOADING by RESET: those that wait, the reload cell's, the abandoned (R144, R145). -/
theorem reset_rs (s : State) : (enterLoading .soft (completeReload .abandoned s)).rs = { s.rs with
    sweep := .idle
    scanPending := false
    reloadCell := none
    outstanding := s.flagsAfterSweep
    completions := (completeReload .abandoned s).rs.completions ++
      ((List.range 32).filter (fun c => s.flagsAfterSweep.getLsbD c &&
        !(completeReload .abandoned s).rs.completions.any (fun x => x.cell == c))).map
          (fun c => ⟨c, .abandoned, 0, s.clock⟩) } := by
  have hclock : (completeReload .abandoned s).clock = s.clock :=
    (Same.get (ps := [.rs, .port]) (s := s) (by simp) .clock).symm
  have hreload : (completeReload .abandoned s).rs.reloadCell = none := by rw [completeReload_rs]
  rw [enterLoading_rs, loadRequests_rs]
  show ({ (completeReload .abandoned s).rs with
    sweep := .idle
    scanPending := false
    outstanding := (completeReload .abandoned s).flagsAfterSweep
    completions := (completeReload .abandoned s).rs.completions ++ ((List.range 32).filter (fun c =>
      (completeReload .abandoned s).flagsAfterSweep.getLsbD c && (completeReload .abandoned s).rs.reloadCell != some c &&
        !(completeReload .abandoned s).rs.completions.any (fun x => x.cell == c))).map
          (fun c => ⟨c, .abandoned, 0, (completeReload .abandoned s).clock⟩) } : Requests) = _
  have hne : ∀ c : Nat, ((none : Option Nat) != some c) = true := fun _ => rfl
  rw [flagsAfterSweep_completeReload, hreload, hclock]
  simp only [hne, Bool.and_true, completeReload_rs]

/-- Settles O14: the order of the completion list is that of `completeReload` before `loadRequests`. -/
theorem loadingAbandonsCells : Obligations.LoadingAbandonsCells := by
  intro s data flags hr h0 hflags
  have hflags' : flags = s.flagsAfterSweep := hflags.trans rfl
  have hwith : (s.withControl data).rs = s.rs ∧ (s.withControl data).clock = s.clock ∧
      (s.withControl data).flagsAfterSweep = s.flagsAfterSweep := ⟨rfl, rfl, rfl⟩
  have reset : data.getLsbD 1 = true → ∀ t, finish s (registerWrite 2 data s) = .next t →
      t.rs = (enterLoading .soft (completeReload .abandoned (s.withControl data))).rs := fun h1 t ht => by
    rw [finish_rs ht, registerWrite_reset hr h0 h1]
  refine ⟨fun h1 => ?_, fun hp => ?_⟩
  · obtain ⟨t, ht⟩ := finish_next s (registerWrite 2 data s)
    have hrs := (reset h1 t ht).trans (reset_rs _)
    refine ⟨t, ht, by rw [hrs], by rw [hrs, hflags']; rfl, _, ?_, by rw [hrs, hflags']; rfl⟩
    rw [completeReload_rs]
    rfl
  · obtain ⟨t, ht⟩ := finish_next s (registerWrite 2 data s)
    cases h1 : data.getLsbD 1 with
    | true =>
      have hrs := (reset h1 t ht).trans (reset_rs _)
      exact ⟨t, ht, by rw [hrs, hflags']; rfl, nofun⟩
    | false =>
      have hrs : t.rs = (loadRequests { s.withControl data with cs := {} }).rs := by
        rw [finish_rs ht, registerWrite_start hr h0 h1 hp, enterLoading_rs]
      rw [loadRequests_rs] at hrs
      exact ⟨t, ht, by rw [hrs, hflags']; rfl, fun _ => ⟨by rw [hrs]; rfl, by rw [hrs, hflags']; rfl⟩⟩

end Sys2Proof.Machine

/-! ## What every block holds at an entry to LOADING (R1, R38, R59, R68, R84, R97, R118, R135, R149) -/

namespace Sys2Proof.Machine

/-! ### Which ports the blocks' parts of the entry touch -/

theorem foldl_complete_get_ne {b : Block} (h : b ≠ .rs) (r : RequestResult) (v : Nat) (cells : List Nat) (s : State) :
    (cells.foldl (fun t c => complete c r v t) s).port.get b = s.port.get b := by
  induction cells generalizing s with
  | nil => rfl
  | cons c cells ih => rw [List.foldl_cons, ih, complete_get_ne h]

theorem loadRequests_get_ne {b : Block} (h : b ≠ .rs) (s : State) : (loadRequests s).port.get b = s.port.get b := by
  unfold loadRequests
  rw [foldl_complete_get_ne h]
  exact keepAccesses_get_ne h _ _

theorem completeReload_get_ne {b : Block} (h : b ≠ .rs) (r : RequestResult) (s : State) :
    (completeReload r s).port.get b = s.port.get b := by
  unfold completeReload
  split
  · rw [complete_get_ne h]
  · rfl

theorem loadCombination_get_ne {b : Block} (h : b ≠ .ce) (s : State) :
    (loadCombination s).port.get b = s.port.get b := by
  unfold loadCombination writeEngineMirrors
  rw [startWrite_get_ne h, keepAccesses_get_ne h]

theorem loadSequencer_get_ne {b : Block} (h : b ≠ .sq) (s : State) : (loadSequencer s).port.get b = s.port.get b := by
  unfold loadSequencer
  rw [startWrite_get_ne h, keepAccesses_get_ne h]

theorem loadJournal_get_ne {b : Block} (h : b ≠ .jw) (s : State) : (loadJournal s).port.get b = s.port.get b := by
  unfold loadJournal
  split
  · rfl
  · rw [startWrite_get_ne h, startWrite_get_ne h]

theorem readLoadField_get_ne {b : Block} (h : b ≠ .dl) (load : Load) (s : State) :
    (readLoadField load s).port.get b = s.port.get b := by
  unfold readLoadField
  split
  · rw [startRead_get_ne h]
  · rfl

theorem loadDescription_get_ne {b : Block} (h : b ≠ .dl) (cause : LoadCause) (s : State) :
    (loadDescription cause s).port.get b = s.port.get b := by
  unfold loadDescription writeReport
  rw [readLoadField_get_ne h, startWrite_get_ne h, keepAccesses_get_ne h]

/-- An exchange that is ended leaves its request to be sent to its end (R135). -/
theorem endExchange_eq (s : State) : endExchange s = { s with lc := { s.lc with
    exchange := .idle, draining := s.lc.draining ++ s.lc.exchange.unsent } } := by
  unfold endExchange
  cases hx : s.lc.exchange with
  | sending i frame => rfl
  | idle =>
    show idleLine s = { s with lc := { s.lc with exchange := .idle, draining := s.lc.draining ++ [] } }
    rw [List.append_nil]
    rfl
  | window i frame =>
    show idleLine s = { s with lc := { s.lc with exchange := .idle, draining := s.lc.draining ++ [] } }
    rw [List.append_nil]
    rfl

/-! ### The stages of the entry -/

/-- The entry up to the Sequencer: the three blocks that wait with request and mirror writes. -/
def enterLoadingQueues (s : State) : State := loadSequencer (loadCombination (loadRequests { s with cs := {} }))

/-- The entry up to the Link Controller: the four owners of mirror groups. -/
def enterLoadingGroups (s : State) : State := loadLink (loadMotion (loadRegistration (loadCrescendo s)))

theorem enterLoading_eq (cause : LoadCause) (s : State) : enterLoading cause s =
    changePart .loading (loadDescription (s.causeOf cause) (loadJournal (enterLoadingGroups (enterLoadingQueues s)))) := rfl

theorem enterLoadingQueues_spec (s : State) :
    Same [.cs, .rs, .ce, .sq, .port] s (enterLoadingQueues s) ∧ (enterLoadingQueues s).cs = {} ∧
    (enterLoadingQueues s).ce = { s.ce with queue := [], job := none, undo := [], ti := 0, locks := [] } ∧
    (enterLoadingQueues s).sq = { s.sq with list := [], job := none } := by
  have hreq : Same [.rs, .port] { s with cs := {} } (loadRequests { s with cs := {} }) := by simp
  have hce : Same [.ce, .port] (loadRequests { s with cs := {} }) (loadCombination (loadRequests { s with cs := {} })) := by
    simp
  have hsq : Same [.sq, .port] (loadCombination (loadRequests { s with cs := {} })) (enterLoadingQueues s) := by
    simp [enterLoadingQueues]
  have ce₁ : s.ce = (loadRequests { s with cs := {} }).ce := hreq.get .ce
  have sq₁ : s.sq = (loadCombination (loadRequests { s with cs := {} })).sq := (hreq.get .sq).trans (hce.get .sq)
  refine ⟨by simp [enterLoadingQueues], ?_, ?_, ?_⟩
  · exact ((hreq.get .cs).trans ((hce.get .cs).trans (hsq.get .cs))).symm
  · rw [ce₁]
    exact (hsq.get .ce).symm
  · rw [sq₁]
    rfl

theorem enterLoadingQueues_get_ce (s : State) : (enterLoadingQueues s).port.get .ce =
    ⟨(s.port.get .ce).queue.filter (Access.isFor .mirror) ++ mirrorBytes
      [(0x0101A0, s.ce.level), (0x0101A1, s.ce.captureEnable.toNat), (0x0101A2, s.ce.captureScope.toNat), (0x0101A3, 0),
        (0x0101A4, 0), (0x0101A5, 0)], []⟩ := by
  have hreq : Same [.rs, .port] { s with cs := {} } (loadRequests { s with cs := {} }) := by simp
  have hce : s.ce = (loadRequests { s with cs := {} }).ce := hreq.get .ce
  have hq : (loadRequests { s with cs := {} }).port.get .ce = s.port.get .ce := loadRequests_get_ne (by decide) _
  unfold enterLoadingQueues
  rw [loadSequencer_get_ne (by decide)]
  generalize loadRequests { s with cs := {} } = r at *
  rw [hce, ← hq]
  unfold loadCombination writeEngineMirrors
  rw [startWrite_get_self, keepAccesses_get_self]
  rfl

theorem enterLoadingQueues_get_sq (s : State) : (enterLoadingQueues s).port.get .sq =
    ⟨(s.port.get .sq).queue.filter (Access.isFor .mirror) ++
      writeAccesses .mirror 0x0101B0 (bytesLE 2 (s.sq.position.getD 0xFFFF)) ++ mirrorBytes [(0x0101B2, 0)], []⟩ := by
  have hreq : Same [.rs, .ce, .port] { s with cs := {} } (loadCombination (loadRequests { s with cs := {} })) := by simp
  have hsq : s.sq = (loadCombination (loadRequests { s with cs := {} })).sq := hreq.get .sq
  have hq : (loadCombination (loadRequests { s with cs := {} })).port.get .sq = s.port.get .sq := by
    rw [loadCombination_get_ne (by decide), loadRequests_get_ne (by decide)]
  unfold enterLoadingQueues
  generalize loadCombination (loadRequests { s with cs := {} }) = r at *
  have hcode : positionCode r.sq.position = s.sq.position.getD 0xFFFF := by
    rw [hsq]
    cases r.sq.position <;> rfl
  unfold loadSequencer
  rw [startWrite_get_self, keepAccesses_get_self, hcode, ← hq, writeAccesses_append, List.append_assoc]
  rfl

theorem enterLoadingQueues_get_ne {b : Block} (hrs : b ≠ .rs) (hce : b ≠ .ce) (hsq : b ≠ .sq) (s : State) :
    (enterLoadingQueues s).port.get b = s.port.get b := by
  unfold enterLoadingQueues
  rw [loadSequencer_get_ne hsq, loadCombination_get_ne hce, loadRequests_get_ne hrs]

/-- With no crescendo image and the tutti flag off, an empty RI speaks as nothing (R22). -/
theorem loadRegistration_ru {s : State} (h : s.cu.images = []) : (loadRegistration s).ru =
    { ri := 0, si := 0, tutti := false, mirror := { s.ru.mirror with full := true } } := by
  have hsi : (loadRegistration s).ru.si = 0 := by
    show (0 : StopImage) ||| s.cu.images.getD s.cu.stage 0 ||| 0 = 0
    rw [h]
    simp
  have : (loadRegistration s).ru =
      { ri := 0, si := (loadRegistration s).ru.si, tutti := false, mirror := { s.ru.mirror with full := true } } := rfl
  rw [this, hsi]

theorem enterLoadingGroups_spec (s : State) :
    Same [.cu, .ru, .ms, .lc] s (enterLoadingGroups s) ∧
    (enterLoadingGroups s).cu = { s.cu with
      signal := .none, q := 0, stage := 0, images := [], loading := none, mirror := { s.cu.mirror with full := true } } ∧
    (enterLoadingGroups s).ru =
      { ri := 0, si := 0, tutti := false, mirror := { s.ru.mirror with full := true } } ∧
    (enterLoadingGroups s).ms = { mirror := { s.ms.mirror with full := true } } ∧
    (enterLoadingGroups s).lc = { s.lc with
      boards := Vector.replicate 16 {}, inRound := false, round := 0, clears := [], changed := true
      exchange := .idle, draining := s.lc.draining ++ s.lc.exchange.unsent
      mirror := { s.lc.mirror with full := true } } := by
  have hg : enterLoadingGroups s = loadLink (loadMotion (loadRegistration (loadCrescendo s))) := rfl
  have hl : Same [.lc] (loadMotion (loadRegistration (loadCrescendo s))) (enterLoadingGroups s) := by simp [hg]
  refine ⟨by simp [hg], (hl.get .cu).symm, ?_, (hl.get .ms).symm, ?_⟩
  · have hru : (loadRegistration (loadCrescendo s)).ru = (enterLoadingGroups s).ru := hl.get .ru
    exact hru.symm.trans (loadRegistration_ru rfl)
  · rw [hg, loadLink, endExchange_eq]
    rfl

theorem loadDescription_dl (cause : LoadCause) (s : State) : (loadDescription cause s).dl = { s.dl with
    valid := false, copy := {}, errorCode := 0, recordClass := 0, recordIndex := 0
    loadCause := some cause, phase := .reading {} } := rfl

theorem loadDescription_get_dl (cause : LoadCause) (s : State) : (loadDescription cause s).port.get .dl =
    ⟨mirrorBytes [(0x0101C0, 0), (0x0101C1, 0), (0x0101C2, 0), (0x0101C3, 0)] ++ readAccesses 0x000000 2, []⟩ := by
  unfold loadDescription
  rw [readLoadField_get (a := 0) (n := 2) rfl, writeReport, startWrite_get_self, keepAccesses_get_self]
  have zeros : writeAccesses .mirror 0x0101C0 (bytesLE 1 0 ++ bytesLE 1 0 ++ bytesLE 2 0) =
      mirrorBytes [(0x0101C0, 0), (0x0101C1, 0), (0x0101C2, 0), (0x0101C3, 0)] := by decide
  rw [← zeros]
  simp only [List.filter_false, List.nil_append]
  rfl

/-- The zeros of the first entry since a hard reset (R149). -/
theorem loadJournal_spec (s : State) :
    (loadJournal s).jw = (if s.jw.cleared then s.jw else { s.jw with phase := .clearing, cleared := true }) ∧
    (loadJournal s).port.get .jw = (if s.jw.cleared then s.port.get .jw
      else ⟨(s.port.get .jw).queue ++ writeAccesses .clear 0x011400 [0, 0, 0, 0, 0, 0, 0, 0] ++
        writeAccesses .clear 0x0101C4 [0, 0], (s.port.get .jw).buf⟩) := by
  unfold loadJournal
  cases hc : s.jw.cleared with
  | true => exact ⟨rfl, rfl⟩
  | false =>
    refine ⟨rfl, ?_⟩
    rw [if_neg (by decide), if_neg (by decide), startWrite_get_self, startWrite_get_self]
    rfl

/-! ### The whole entry -/

section
variable (cause : LoadCause) (s : State)

/-- The stages behind the first touch neither these three blocks nor the contacts. -/
theorem enterLoading_queues : (enterLoading cause s).cs = {} ∧
    (enterLoading cause s).ce = { s.ce with queue := [], job := none, undo := [], ti := 0, locks := [] } ∧
    (enterLoading cause s).sq = { s.sq with list := [], job := none } := by
  have h : Same [.part, .cause, .dl, .jw, .cu, .ru, .ms, .lc, .port] (enterLoadingQueues s) (enterLoading cause s) := by
    simp [enterLoading_eq, enterLoadingGroups]
  obtain ⟨-, hcs, hce, hsq⟩ := enterLoadingQueues_spec s
  rw [← hcs, ← hce, ← hsq]
  exact ⟨(h.get .cs).symm, (h.get .ce).symm, (h.get .sq).symm⟩

/-- The values of the four owners of mirror groups, a full update due in each. -/
theorem enterLoading_groups :
    (enterLoading cause s).cu = { s.cu with
      signal := .none, q := 0, stage := 0, images := [], loading := none, mirror := { s.cu.mirror with full := true } } ∧
    (enterLoading cause s).ru =
      { ri := 0, si := 0, tutti := false, mirror := { s.ru.mirror with full := true } } ∧
    (enterLoading cause s).ms = { mirror := { s.ms.mirror with full := true } } ∧
    (enterLoading cause s).lc = { s.lc with
      boards := Vector.replicate 16 {}, inRound := false, round := 0, clears := [], changed := true
      exchange := .idle, draining := s.lc.draining ++ s.lc.exchange.unsent
      mirror := { s.lc.mirror with full := true } } := by
  have h : Same [.part, .cause, .dl, .jw, .port] (enterLoadingGroups (enterLoadingQueues s)) (enterLoading cause s) := by
    simp [enterLoading_eq]
  have hq := (enterLoadingQueues_spec s).1
  have qcu : s.cu = (enterLoadingQueues s).cu := hq.get .cu
  have qru : s.ru = (enterLoadingQueues s).ru := hq.get .ru
  have qms : s.ms = (enterLoadingQueues s).ms := hq.get .ms
  have qlc : s.lc = (enterLoadingQueues s).lc := hq.get .lc
  obtain ⟨-, hcu, hru, hms, hlc⟩ := enterLoadingGroups_spec (enterLoadingQueues s)
  rw [qcu, qru, qms, qlc, ← hcu, ← hru, ← hms, ← hlc]
  exact ⟨(h.get .cu).symm, (h.get .ru).symm, (h.get .ms).symm, (h.get .lc).symm⟩

/-- The journal and the description as the last stages find them. -/
theorem enterLoadingGroups_queues_same : Same [.cs, .rs, .ce, .sq, .cu, .ru, .ms, .lc, .port] s
    (enterLoadingGroups (enterLoadingQueues s)) :=
  ((enterLoadingQueues_spec s).1.mono (by decide)).trans ((enterLoadingGroups_spec (enterLoadingQueues s)).1.mono (by decide))

theorem enterLoading_dl : (enterLoading cause s).dl = { s.dl with
    valid := false, copy := {}, errorCode := 0, recordClass := 0, recordIndex := 0
    loadCause := some (s.causeOf cause), phase := .reading {} } := by
  have h : Same [.cs, .rs, .ce, .sq, .cu, .ru, .ms, .lc, .jw, .port] s
      (loadJournal (enterLoadingGroups (enterLoadingQueues s))) :=
    (loadJournal_same (by decide)).2 ((enterLoadingGroups_queues_same s).mono (by decide))
  have hdl : s.dl = (loadJournal (enterLoadingGroups (enterLoadingQueues s))).dl := h.get .dl
  rw [enterLoading_eq, changePart_dl, loadDescription_dl, ← hdl]

theorem enterLoading_jw : (enterLoading cause s).jw =
    if s.jw.cleared then s.jw else { s.jw with phase := .clearing, cleared := true } := by
  have h : s.jw = (enterLoadingGroups (enterLoadingQueues s)).jw := (enterLoadingGroups_queues_same s).get .jw
  rw [h, ← (loadJournal_spec _).1]
  exact (Same.get (ps := [.dl, .part, .cause, .port]) (by simp [enterLoading_eq]) .jw).symm

theorem enterLoadingGroups_port (s : State) : (enterLoadingGroups s).port = s.port :=
  ((enterLoadingGroups_spec s).1.get .port).symm

theorem enterLoading_get_ne {b : Block} (hdl : b ≠ .dl) (hjw : b ≠ .jw) :
    (enterLoading cause s).port.get b = (enterLoadingQueues s).port.get b := by
  rw [enterLoading_eq]
  show (loadDescription _ _).port.get b = _
  rw [loadDescription_get_ne hdl, loadJournal_get_ne hjw, enterLoadingGroups_port]

theorem enterLoading_get_dl : (enterLoading cause s).port.get .dl =
    ⟨mirrorBytes [(0x0101C0, 0), (0x0101C1, 0), (0x0101C2, 0), (0x0101C3, 0)] ++ readAccesses 0x000000 2, []⟩ :=
  loadDescription_get_dl ..

theorem enterLoading_get_jw : (enterLoading cause s).port.get .jw = if s.jw.cleared then s.port.get .jw
    else ⟨(s.port.get .jw).queue ++ writeAccesses .clear 0x011400 [0, 0, 0, 0, 0, 0, 0, 0] ++
      writeAccesses .clear 0x0101C4 [0, 0], (s.port.get .jw).buf⟩ := by
  have h : s.jw = (enterLoadingGroups (enterLoadingQueues s)).jw := (enterLoadingGroups_queues_same s).get .jw
  rw [enterLoading_eq]
  show (loadDescription _ _).port.get .jw = _
  rw [loadDescription_get_ne (by decide), (loadJournal_spec _).2, ← h, enterLoadingGroups_port,
    enterLoadingQueues_get_ne (by decide) (by decide) (by decide)]

end

/-! ### The full updates (R36, R157) -/

/-- A full update of the link mirrors writes every one, whatever the last update wrote. -/
theorem linkWrites_full (old old' : List BoardValues) (i : Nat) (values : List BoardValues) :
    linkWrites true old i values = linkWrites true old' i values := by
  induction values generalizing i with
  | nil => rfl
  | cons v values ih =>
    rw [linkWrites, linkWrites, ih]
    rfl

theorem Mirror.begins_of_full {V : Type} {m : Mirror V} (h : m.full = true) : m.begins = true := by
  rw [Mirror.begins, h, Bool.true_or]

/-- Where every group has its full update to begin, the end of the command begins it. -/
theorem fullUpdateBegun_of_finish {s t v : State} (hr : v.inReset = false) (h : finish s v = .next t)
    (hru : v.ru.mirror.full = true ∧ v.ru.mirror.count = s.ru.mirror.count)
    (hcu : v.cu.mirror.full = true ∧ v.cu.mirror.count = s.cu.mirror.count)
    (hms : v.ms.mirror.full = true ∧ v.ms.mirror.count = s.ms.mirror.count)
    (hlc : v.lc.mirror.full = true ∧ v.lc.mirror.count = s.lc.mirror.count) (hchanged : v.lc.changed = true) :
    FullUpdateBegun s t := by
  obtain ⟨iru, iq⟩ := (finish_image hr h rfl).1 (Mirror.begins_of_full hru.1)
  obtain ⟨icu, cq⟩ := (finish_crescendo hr h rfl).1 (Mirror.begins_of_full hcu.1)
  obtain ⟨ims, mq⟩ := (finish_motion hr h rfl).1 (Mirror.begins_of_full hms.1)
  obtain ⟨ilc, hshow, lq⟩ := (finish_link hr h rfl).1 (Mirror.begins_of_full hlc.1)
  have odd : ∀ c : BitVec 32, oddCount c = nextOdd c := fun _ => rfl
  simp only [Mirror.begun, Mirror.mark, hru.2, odd] at iru
  simp only [Mirror.begun, Mirror.mark, hcu.2, odd] at icu
  simp only [Mirror.begun, Mirror.mark, hms.2, odd] at ims
  simp only [Mirror.begun, Mirror.mark, hlc.2, odd] at ilc
  simp only [Mirror.mark, hru.1, hru.2, odd] at iq
  simp only [Mirror.mark, hcu.1, hcu.2, odd] at cq
  simp only [Mirror.mark, hms.1, hms.2, odd] at mq
  simp only [Mirror.mark, hlc.1, hlc.2, odd] at lq
  refine ⟨iru, ?_, icu, ?_, ims, ?_, ilc, hshow.trans hchanged, ?_⟩
  · rw [iq, iru]
    rfl
  · rw [cq, icu]
    rfl
  · rw [mq, ims]
    rfl
  · rw [lq, ilc, linkWrites_full _ []]
    rfl

/-! ### The settled statement -/

/-- The entry to LOADING from a state that differs from `s` in the CONTROL bits and the Request Scanner alone. -/
theorem loadingEntered_of_finish {s s' t : State} {cause : LoadCause} (hr : s.inReset = false)
    (hs : Same [.run, .attnEn, .rs, .port] s s') (hp : ∀ b : Block, b ≠ .rs → s'.port.get b = s.port.get b)
    (h : finish s (enterLoading cause s') = .next t) : LoadingEntered s t (s'.causeOf cause) := by
  have hv := finish_visible h
  have hce : s.ce = s'.ce := hs.get .ce
  have hsq : s.sq = s'.sq := hs.get .sq
  have hcu : s.cu = s'.cu := hs.get .cu
  have hru : s.ru = s'.ru := hs.get .ru
  have hms : s.ms = s'.ms := hs.get .ms
  have hlc : s.lc = s'.lc := hs.get .lc
  have hdl : s.dl = s'.dl := hs.get .dl
  have hjw : s.jw = s'.jw := hs.get .jw
  have hrest : Same [.part, .cause, .dl, .jw, .lc, .ms, .ru, .cu, .sq, .ce, .rs, .cs, .port] s' (enterLoading cause s') := by
    simp
  have hreset : s.inReset = (enterLoading cause s').inReset := (hs.get .inReset).trans (hrest.get .inReset)
  rw [hr] at hreset
  obtain ⟨ecs, ece, esq⟩ := enterLoading_queues cause s'
  obtain ⟨ecu, eru, ems, elc⟩ := enterLoading_groups cause s'
  have tlc : t.visible.lc = (enterLoading cause s').visible.lc := (congrArg (fun x : State => x.lc) hv : _)
  have tru : t.visible.ru = (enterLoading cause s').visible.ru := (congrArg (fun x : State => x.ru) hv : _)
  have tce : t.ce = (enterLoading cause s').ce := (congrArg (fun x : State => x.ce) hv : _)
  have tcs : t.cs = (enterLoading cause s').cs := (congrArg (fun x : State => x.cs) hv : _)
  have updates := fullUpdateBegun_of_finish hreset.symm h (by rw [eru, hru]; exact ⟨rfl, rfl⟩)
    (by rw [ecu, hcu]; exact ⟨rfl, rfl⟩) (by rw [ems, hms]; exact ⟨rfl, rfl⟩) (by rw [elc, hlc]; exact ⟨rfl, rfl⟩)
    (by rw [elc])
  refine ⟨(congrArg State.part hv).trans rfl, hasCause_of_cause (f := .state) (congrArg State.cause hv),
    (congrArg Registration.ri tru).trans (congrArg Registration.ri eru), by rw [tcs, ecs],
    (congrArg Registration.si tru).trans (congrArg Registration.si eru), by rw [tce, ece],
    (congrArg Registration.tutti tru).trans (congrArg Registration.tutti eru), tcs.trans ecs, ?_, ?_, ?_, ?_, ?_, ?_, ?_,
    (congrArg Link.exchange tlc).trans (congrArg Link.exchange elc),
    (congrArg Link.inRound tlc).trans (congrArg Link.inRound elc),
    (congrArg Link.round tlc).trans (congrArg Link.round elc),
    (congrArg Link.clears tlc).trans (congrArg Link.clears elc), ?_, ?_, ?_, ?_, ?_, fun _ => updates, ?_, ?_, ?_⟩
  · rw [tce, ece, hce]
  · rw [finish_get (b := .ce) rfl h, enterLoading_get_ne _ _ (by decide) (by decide), enterLoadingQueues_get_ce,
      hp _ (by decide), hce]
  · exact (congrArg State.sq hv).trans (hsq ▸ esq)
  · rw [finish_get (b := .sq) rfl h, enterLoading_get_ne _ _ (by decide) (by decide), enterLoadingQueues_get_sq,
      hp _ (by decide), hsq]
  · rw [hv]
    show ({ (enterLoading cause s').cu with mirror := { shadow := {} } } : Crescendo) =
      { { s.cu with mirror := { shadow := {} } } with signal := .none, q := 0, stage := 0, images := [], loading := none }
    rw [ecu, hcu]
  · rw [hv]
    show ({ (enterLoading cause s').ms with
      declared := false, showing := false, mirror := { shadow := {} } } : Motion) = _
    rw [ems]
  · intro i
    have hb : t.lc.boards = Vector.replicate 16 {} := (congrArg Link.boards tlc).trans (congrArg Link.boards elc)
    simp [hb]
  · rw [hlc]
    exact (congrArg Link.draining tlc).trans (congrArg Link.draining elc)
  · exact (congrArg State.dl hv).trans (hdl ▸ enterLoading_dl cause s')
  · rw [finish_get (b := .dl) rfl h, enterLoading_get_dl]
  · exact (congrArg State.jw hv).trans (hjw ▸ enterLoading_jw cause s')
  · rw [finish_get (b := .jw) rfl h, enterLoading_get_jw, hp _ (by decide), hjw]
  · exact (congrArg State.mem hv).trans ((hrest.get .mem).symm.trans (hs.get .mem).symm)
  · exact (congrArg State.clock hv).trans ((hrest.get .clock).symm.trans (hs.get .clock).symm)
  · exact (congrArg State.line hv).trans ((hrest.get .line).symm.trans (hs.get .line).symm)

/-- Settles O13: both writes are an entry from a state with the CONTROL bits of the write, and RESET completes a held
reload cell before it (`loadingEntered_of_finish`). -/
theorem loadingClearsBlocks : Obligations.LoadingClearsBlocks := by
  intro s data hr h0 c hc
  have enters : ∀ s' : State, registerWrite 2 data s = enterLoading .soft s' → Same [.run, .attnEn, .rs, .port] s s' →
      (∀ b : Block, b ≠ .rs → s'.port.get b = s.port.get b) →
      ∃ t, finish s (registerWrite 2 data s) = .next t ∧
        LoadingEntered s t (if s.dl.loadedOnce then .soft else .hard) ∧ t.rs.sweep = .idle ∧ t.rs.scanPending = false := by
    intro s' heq hs hp
    obtain ⟨t, ht⟩ := finish_next s (registerWrite 2 data s)
    have hdl : s.dl = s'.dl := hs.get .dl
    have hcause : s'.causeOf .soft = if s.dl.loadedOnce then .soft else .hard := by rw [State.causeOf, hdl]
    have hrs : t.rs = (loadRequests { s' with cs := {} }).rs := by rw [finish_rs ht, heq, enterLoading_rs]
    rw [loadRequests_rs] at hrs
    refine ⟨t, ht, ?_, by rw [hrs], by rw [hrs]⟩
    rw [heq] at ht
    rw [← hcause]
    exact loadingEntered_of_finish hr hs hp ht
  have withReload : Same [.run, .attnEn, .rs, .port] s (completeReload .abandoned (s.withControl data)) :=
    (completeReload_same _ (by decide)).2 ((withControl_same s data).mono (by decide))
  have onReset : data.getLsbD 1 = true → _ := fun h1 => enters _ (registerWrite_reset hr h0 h1) withReload
    (fun b hb => completeReload_get_ne hb _ _)
  rcases hc with ⟨rfl, h1⟩ | ⟨rfl, hp⟩
  · exact onReset h1
  · cases h1 : data.getLsbD 1 with
    | true => exact onReset h1
    | false =>
      exact enters _ (registerWrite_start hr h0 h1 hp) ((withControl_same s data).mono (by decide)) (fun _ _ => rfl)

end Sys2Proof.Machine

/-! ## What the memory port leaves in console memory (R157, R158), and a result that is written (R140) -/

namespace Sys2Proof.Machine

/-! ### Memory after accesses -/

theorem Memory.after_append (l r : List Access) (m : Memory) : m.after (l ++ r) = (m.after l).after r := by
  induction l generalizing m with
  | nil => rfl
  | cons x l ih => cases x <;> exact ih _

theorem Memory.after_writeAccesses (p : Purpose) (a : Nat) (bytes : List Byte) (m : Memory) :
    m.after (writeAccesses p a bytes) = m.writeBytes a bytes := by
  induction bytes generalizing a m with
  | nil => rfl
  | cons b bytes ih => exact ih _ _

theorem Memory.after_wf (l : List Access) {m : Memory} (h : m.wf = true) : (m.after l).wf = true := by
  induction l generalizing m with
  | nil => exact h
  | cons x l ih =>
    cases x with
    | read a => exact ih h
    | write p a v => exact ih (Memory.write_wf a v h)

/-- What accesses leave at an address depends on what stood there alone. -/
theorem Memory.read_after_congr (l : List Access) {m m' : Memory} (h : m.wf = true) (h' : m'.wf = true) {k : Nat}
    (e : m.read k = m'.read k) : (m.after l).read k = (m'.after l).read k := by
  induction l generalizing m m' with
  | nil => exact e
  | cons x l ih =>
    cases x with
    | read a => exact ih h h' e
    | write p a v =>
      refine ih (Memory.write_wf a v h) (Memory.write_wf a v h') ?_
      rw [Memory.read_write h, Memory.read_write h', e]

theorem Memory.readBytes_congr {m m' : Memory} {a n : Nat} (h : ∀ k, a ≤ k → k < a + n → m.read k = m'.read k) :
    m.readBytes a n = m'.readBytes a n := by
  induction n generalizing a with
  | zero => rfl
  | succ n ih =>
    rw [Memory.readBytes, Memory.readBytes, h a (le_refl a) (by omega), ih (fun k hlo hhi => h k (by omega) (by omega))]

/-! ### One access is served -/

/-- A relation that holds where nothing is served, and passes backwards over each access, holds of a run of the port. -/
theorem serveUntil_induction {R : State → State → Prop} (stop : ∀ s, R s s)
    (serve : ∀ s c u, (s.port.get c).queue ≠ [] → R (serveBlock c s) u → R s u) (b : Block) (done : BlockPort → Bool)
    (n : Nat) (s : State) : R s (serveUntil b done n s) := by
  induction n generalizing s with
  | zero => exact stop s
  | succ n ih =>
    unfold serveUntil
    split
    · exact stop s
    · split
      · rename_i u hu
        obtain ⟨c, hc, rfl⟩ := Option.map_eq_some_iff.1 hu
        exact serve s c _ (queue_ne_nil_of_granted hc) (ih _)
      · exact stop s

theorem mem_of_serveBlock {b c : Block} {s : State} {x : Access} (h : x ∈ ((serveBlock b s).port.get c).queue) :
    x ∈ (s.port.get c).queue := by
  rw [serveBlock_queue] at h
  split at h
  · rename_i hc
    subst hc
    exact List.mem_of_mem_tail h
  · exact h

/-- The access served is the first that its block waits with. -/
theorem serveBlock_mem {b : Block} {s : State} {x : Access} {rest : List Access}
    (h : (s.port.get b).queue = x :: rest) : (serveBlock b s).mem = s.mem.after [x] := by
  unfold serveBlock
  rw [h]
  cases x <;> rfl

theorem serveBlock_get_of_ne {b c : Block} (h : c ≠ b) (s : State) : (serveBlock b s).port.get c = s.port.get c := by
  unfold serveBlock
  split
  · rfl
  · simp [Port.get_put_of_ne _ _ h]
  · simp [Port.get_put_of_ne _ _ h]

/-- A byte that an access does not write. -/
theorem Memory.read_after_singleton {m : Memory} (h : m.wf = true) {x : Access} {k : Nat} (hx : x.writes k = false) :
    (m.after [x]).read k = m.read k := by
  cases x with
  | read a => rfl
  | write p a v =>
    have hne : k ≠ a := fun e => by simp [Access.writes, e] at hx
    show (m.write a v).read k = m.read k
    rw [Memory.read_write h, if_neg hne]

/-! ### What is served until a block is done -/

/-- No access joins a queue while the port serves. -/
theorem mem_of_serveUntil {b c : Block} {done : BlockPort → Bool} {n : Nat} {s : State} {x : Access}
    (h : x ∈ ((serveUntil b done n s).port.get c).queue) : x ∈ (s.port.get c).queue := by
  have key := serveUntil_induction (R := fun s t => ∀ x, x ∈ (t.port.get c).queue → x ∈ (s.port.get c).queue)
    (fun _ _ => id) (fun s d u _ hu x hx => mem_of_serveBlock (hu x hx)) b done n s
  exact key x h

/-- A block that waits with nothing is left as it is. -/
theorem serveUntil_get_of_empty {b c : Block} {done : BlockPort → Bool} {n : Nat} {s : State}
    (h : (s.port.get c).queue = []) : (serveUntil b done n s).port.get c = s.port.get c := by
  have key := serveUntil_induction
    (R := fun s t => (s.port.get c).queue = [] → t.port.get c = s.port.get c) (fun _ _ => rfl)
    (fun s d u hd hu hs => by
      have hne : c ≠ d := fun e => hd (e ▸ hs)
      rw [hu (by rw [serveBlock_get_of_ne hne, hs]), serveBlock_get_of_ne hne]) b done n s
  exact key h

/-- A byte that no waiting access writes stands. -/
theorem serveUntil_read {b : Block} {done : BlockPort → Bool} {n : Nat} {s : State} (hwf : s.mem.wf = true) {k : Nat}
    (h : ¬ s.port.mayWrite k) : (serveUntil b done n s).mem.read k = s.mem.read k := by
  have key := serveUntil_induction
    (R := fun s t => s.mem.wf = true → ¬ s.port.mayWrite k → t.mem.read k = s.mem.read k) (fun _ _ _ => rfl)
    (fun s d u hd hu hwf hs => by
      obtain ⟨x, rest, hq⟩ := List.exists_cons_of_ne_nil hd
      have hx : x.writes k = false := by
        rw [← Bool.not_eq_true]
        exact fun hw => hs ⟨d, x, by rw [hq]; exact List.mem_cons_self .., hw⟩
      rw [hu (serveBlock_wf d s hwf) (fun ⟨c, y, hy, hw⟩ => hs ⟨c, y, mem_of_serveBlock hy, hw⟩), serveBlock_mem hq,
        Memory.read_after_singleton hwf hx]) b done n s
  exact key hwf h

/-- The block's first accesses have been made, in their order, and a byte that no other block writes holds what they
leave. -/
def ServedOf (b : Block) (s t : State) : Prop :=
  ∃ made, (s.port.get b).queue = made ++ (t.port.get b).queue ∧
    (s.mem.wf = true → ∀ k, ¬ s.port.othersMayWrite b k → t.mem.read k = (s.mem.after made).read k)

theorem servedOf_serveBlock_self {b : Block} {s u : State} (hb : (s.port.get b).queue ≠ [])
    (hu : ServedOf b (serveBlock b s) u) : ServedOf b s u := by
  obtain ⟨made, hmade, hread⟩ := hu
  obtain ⟨x, rest, hq⟩ := List.exists_cons_of_ne_nil hb
  rw [serveBlock_queue, if_pos rfl, hq, List.tail_cons] at hmade
  refine ⟨x :: made, by rw [hq, hmade, List.cons_append], fun hwf k hk => ?_⟩
  have hsplit : s.mem.after (x :: made) = (s.mem.after [x]).after made := Memory.after_append [x] made _
  rw [hsplit, ← serveBlock_mem hq]
  exact hread (serveBlock_wf b s hwf) k (fun ⟨c, hc, y, hy, hw⟩ => hk ⟨c, hc, y, mem_of_serveBlock hy, hw⟩)

theorem servedOf_serveBlock_ne {b c : Block} {s u : State} (hc : (s.port.get c).queue ≠ []) (hne : c ≠ b)
    (hu : ServedOf b (serveBlock c s) u) : ServedOf b s u := by
  obtain ⟨made, hmade, hread⟩ := hu
  obtain ⟨x, rest, hq⟩ := List.exists_cons_of_ne_nil hc
  rw [serveBlock_get_of_ne (Ne.symm hne)] at hmade
  refine ⟨made, hmade, fun hwf k hk => ?_⟩
  have hx : x.writes k = false := by
    rw [← Bool.not_eq_true]
    exact fun hw => hk ⟨c, hne, x, by rw [hq]; exact List.mem_cons_self .., hw⟩
  have hwf' := serveBlock_wf c s hwf
  rw [hread hwf' k (fun ⟨d, hd, y, hy, hw⟩ => hk ⟨d, hd, y, mem_of_serveBlock hy, hw⟩)]
  exact Memory.read_after_congr made hwf' hwf (by rw [serveBlock_mem hq, Memory.read_after_singleton hwf hx])

theorem serveUntil_servedOf (b : Block) (done : BlockPort → Bool) (n : Nat) (s : State) :
    ServedOf b s (serveUntil b done n s) := by
  refine serveUntil_induction (R := ServedOf b) (fun s => ⟨[], rfl, fun _ _ _ => rfl⟩) (fun s c u hc hu => ?_) b done n s
  by_cases h : c = b
  · subst h
    exact servedOf_serveBlock_self hc hu
  · exact servedOf_serveBlock_ne hc h hu

/-- Writes at the end of a block's queue that end with one of their purpose have all been made once the purpose is
done. -/
theorem finishWrite_made {b : Block} {p : Purpose} {s : State} {as : List Access} {x : Access}
    (hq : (s.port.get b).queue = as ++ [x]) (hx : x.isFor p = true) (hwf : s.mem.wf = true) {k : Nat}
    (hk : ¬ s.port.othersMayWrite b k) : (finishWrite b p s).mem.read k = (s.mem.after (as ++ [x])).read k := by
  obtain ⟨made, hmade, hread⟩ := serveUntil_servedOf b (BlockPort.writeDone p) s.port.waiting s
  have hdone := finishWrite_done b p s
  have hleft : ((finishWrite b p s).port.get b).queue = [] := by
    by_contra hne
    obtain ⟨init, last, hlast⟩ := (List.eq_nil_or_concat' _).resolve_left hne
    have hsame : last = x := by
      have : made ++ (init ++ [last]) = as ++ [x] := by rw [← hlast, ← hq]; exact hmade.symm
      rw [← List.append_assoc] at this
      exact (List.append_inj' this rfl).2 |> List.singleton_inj.1
    have hall := List.all_eq_true.1 hdone last (by rw [hlast]; simp)
    rw [hsame, hx] at hall
    exact absurd hall (by decide)
  have hall : made = as ++ [x] := by
    have : (s.port.get b).queue = made ++ [] := hmade.trans (by rw [← hleft]; rfl)
    rw [← hq, this, List.append_nil]
  rw [← hall]
  exact hread hwf k hk

/-! ### The bytes of a result (R140, R162) -/

/-- The writes of a result end with its DONE. -/
theorem completionAccesses_eq_concat (c : Completion) : ∃ as, completionAccesses c =
    as ++ [.write .complete (0x011000 + 16 * c.cell) 3] :=
  ⟨_, rfl⟩

/-- What the writes of a result leave in its cell. -/
theorem completion_written (c : Completion) {m : Memory} (h : m.wf = true) :
    let w := m.after (completionAccesses c)
    w.read (0x011000 + 16 * c.cell) = 3 ∧ w.read (0x011000 + 16 * c.cell + 2) = BitVec.ofNat 8 c.result.code ∧
      w.readBytes (0x011000 + 16 * c.cell + 8) 4 = bytesLE 4 c.value ∧
      w.readBytes (0x011000 + 16 * c.cell + 12) 4 = bytesLE 4 c.time.toNat := by
  intro w
  generalize ha : 0x011000 + 16 * c.cell = a
  have hw : w = (((m.writeBytes (a + 2) (bytesLE 1 c.result.code)).writeBytes (a + 8) (bytesLE 4 c.value)).writeBytes
      (a + 12) (bytesLE 4 c.time.toNat)).writeBytes a [3] := by
    show m.after (completionAccesses c) = _
    unfold completionAccesses
    simp only [Memory.after_append, Memory.after_writeAccesses]
    rw [show cellAddr c.cell = a from ha]
    rfl
  have wf₁ := Memory.writeBytes_wf (bytesLE 1 c.result.code) (a + 2) h
  have wf₂ := Memory.writeBytes_wf (bytesLE 4 c.value) (a + 8) wf₁
  have wf₃ := Memory.writeBytes_wf (bytesLE 4 c.time.toNat) (a + 12) wf₂
  have outside : ∀ k, a < k → w.read k = (((m.writeBytes (a + 2) (bytesLE 1 c.result.code)).writeBytes (a + 8)
      (bytesLE 4 c.value)).writeBytes (a + 12) (bytesLE 4 c.time.toNat)).read k := fun k hk => by
    rw [hw, Memory.read_writeBytes_outside _ wf₃ (Or.inr (by simp; omega))]
  refine ⟨?_, ?_, ?_, ?_⟩
  · rw [hw]
    exact (Memory.read_write wf₃ a a 3).trans (if_pos rfl)
  · rw [outside _ (by omega), Memory.read_writeBytes_outside _ wf₂ (Or.inl (by omega)),
      Memory.read_writeBytes_outside _ wf₁ (Or.inl (by omega))]
    exact (Memory.read_write h (a + 2) (a + 2) _).trans (if_pos rfl)
  · rw [Memory.readBytes_congr (fun k hlo hhi => outside k (by omega)),
      Memory.readBytes_congr (fun k hlo hhi => Memory.read_writeBytes_outside _ wf₂ (Or.inl (by omega)))]
    exact Memory.readBytes_writeBytes (bytesLE 4 c.value) (a + 8) wf₁
  · rw [Memory.readBytes_congr (fun k hlo hhi => outside k (by omega))]
    exact Memory.readBytes_writeBytes (bytesLE 4 c.time.toNat) (a + 12) wf₂

end Sys2Proof.Machine

/-! ## The results up to a reload cell's are written (R16, R140, R144; log entry 11) -/

namespace Sys2Proof.Machine

/-! ### One result -/

/-- Outside a sweep and a load, the end of a result's writes clears its flag, raises REQ and starts the next result's
writes, and does nothing else (R140). -/
theorem finishCompletion_quiet {s : State} {x : Completion} {rest : List Completion}
    (hlist : s.rs.completions = x :: rest) (hsweep : s.rs.sweep = .idle) (hphase : s.dl.phase = .idle) :
    finishCompletion s = startCompletion (raise .req { s with rs := { s.rs with
      completions := rest, outstanding := setBit s.rs.outstanding x.cell false } }) := by
  unfold finishCompletion
  rw [hlist]
  dsimp only
  generalize hr : raise .req { s with rs := { s.rs with
      completions := rest, outstanding := setBit s.rs.outstanding x.cell false } } = r
  have hstart : Same [.port] r (startCompletion r) := by simp
  have hsweep' : r.rs = (startCompletion r).rs := hstart.get .rs
  have hdl : r.dl = (startCompletion r).dl := hstart.get .dl
  rw [← hsweep']
  have hawaits : r.rs.sweep.awaits x.cell = false := by
    rw [← hr]
    show s.rs.sweep.awaits x.cell = false
    rw [hsweep]
    rfl
  rw [hawaits, if_neg Bool.false_ne_true, ← hdl]
  refine if_neg ?_
  rw [← hr]
  show s.dl.phase ≠ _
  rw [hphase]
  exact nofun

/-- The oldest result is written, and its end follows. -/
def State.afterResult (s : State) : State := finishCompletion (finishWrite .rs .complete s)

section
variable {s : State} {x : Completion} {rest : List Completion} (hlist : s.rs.completions = x :: rest)
  (hsweep : s.rs.sweep = .idle) (hphase : s.dl.phase = .idle)
include hlist hsweep hphase

theorem afterResult_eq : s.afterResult = startCompletion (raise .req { finishWrite .rs .complete s with rs := { s.rs with
      completions := rest, outstanding := setBit s.rs.outstanding x.cell false } }) := by
  have h : Same [.mem, .port] s (finishWrite .rs .complete s) := by simp
  have hrs : s.rs = (finishWrite .rs .complete s).rs := h.get .rs
  have hdl : s.dl = (finishWrite .rs .complete s).dl := h.get .dl
  rw [State.afterResult, finishCompletion_quiet (hrs ▸ hlist) (hrs ▸ hsweep) (hdl ▸ hphase), ← hrs]

theorem afterResult_same : Same [.mem, .port, .rs, .cause] s s.afterResult := by
  rw [afterResult_eq hlist hsweep hphase]
  simp

theorem afterResult_rs : s.afterResult.rs =
    { s.rs with completions := rest, outstanding := setBit s.rs.outstanding x.cell false } := by
  rw [afterResult_eq hlist hsweep hphase]
  exact (Same.get ((startCompletion_same (ps := [.port]) (by decide)).2 (Same.refl _ _)) .rs).symm

theorem afterResult_mem : s.afterResult.mem = (finishWrite .rs .complete s).mem := by
  rw [afterResult_eq hlist hsweep hphase]
  exact (Same.get (ps := [.port, .rs, .cause]) (s := finishWrite .rs .complete s) (by simp) .mem).symm

theorem afterResult_cause : s.afterResult.hasCause .req = true := by
  refine hasCause_of_cause (cause := (finishWrite .rs .complete s).cause) ?_
  rw [afterResult_eq hlist hsweep hphase]
  exact (Same.get ((startCompletion_same (ps := [.port]) (by decide)).2 (Same.refl _ _)) .cause).symm

/-- The Request Scanner then waits, last, with the writes of the next result. -/
theorem afterResult_queue : (s.afterResult.port.get .rs).queue =
    ((finishWrite .rs .complete s).port.get .rs).queue ++ rest.head?.toList.flatMap completionAccesses := by
  rw [afterResult_eq hlist hsweep hphase]
  cases rest with
  | nil => exact (List.append_nil _).symm
  | cons y rest =>
    show ((enqueueAccesses .rs (completionAccesses y) _).port.get .rs).queue = _
    rw [enqueueAccesses_get_self]
    simp

theorem afterResult_get_ne {b : Block} (h : b ≠ .rs) :
    s.afterResult.port.get b = (finishWrite .rs .complete s).port.get b := by
  rw [afterResult_eq hlist hsweep hphase]
  cases rest with
  | nil => rfl
  | cons y rest => exact enqueueAccesses_get_ne h _ _

/-- What may be written after it: what might before, and the next result's cell. -/
theorem mem_afterResult {b : Block} {a : Access} (h : a ∈ (s.afterResult.port.get b).queue) :
    a ∈ (s.port.get b).queue ∨ (b = .rs ∧ ∃ y ∈ rest, a ∈ completionAccesses y) := by
  by_cases hb : b = .rs
  · subst hb
    rw [afterResult_queue hlist hsweep hphase, List.mem_append] at h
    rcases h with h | h
    · exact Or.inl (mem_of_serveUntil h)
    · refine Or.inr ⟨rfl, ?_⟩
      cases rest with
      | nil => simp at h
      | cons y rest => exact ⟨y, by simp, by simpa using h⟩
  · rw [afterResult_get_ne hlist hsweep hphase hb] at h
    exact Or.inl (mem_of_serveUntil h)

end

/-! ### The results up to a cell's -/

/-- The outstanding flags without those of these results' cells. -/
def clearFlags (flags : BitVec 32) (held : List Completion) : BitVec 32 :=
  held.foldl (fun f x => setBit f x.cell false) flags

theorem getLsbD_clearFlags (flags : BitVec 32) (held : List Completion) (k : Nat) :
    (clearFlags flags held).getLsbD k = (flags.getLsbD k && !held.any (fun x => x.cell == k)) := by
  induction held generalizing flags with
  | nil => simp [clearFlags]
  | cons x held ih =>
    rw [clearFlags, List.foldl_cons, ← clearFlags, ih, getLsbD_setBit, List.any_cons]
    by_cases hx : x.cell = k
    · subst hx
      by_cases hk : x.cell < 32
      · simp [hk]
      · simp [hk, BitVec.getLsbD_of_ge flags x.cell (by omega)]
    · have hne : (x.cell == k) = false := by simpa using hx
      simp [hne, Ne.symm hx]

/-- A byte in the cell of one of these results. -/
def inCells (held : List Completion) (k : Nat) : Prop :=
  ∃ x ∈ held, 0x011000 + 16 * x.cell ≤ k ∧ k < 0x011000 + 16 * x.cell + 16

/-- The state in which the results of a list are about to be written: no sweep, no load, and where one result is left, its
writes wait, last. -/
structure Draining (s : State) (init : List Completion) (last : Completion) : Prop where
  list : s.rs.completions = init ++ [last]
  sweep : s.rs.sweep = .idle
  phase : s.dl.phase = .idle
  reload : s.rs.reloadCell = none
  writes : init = [] → ∃ before, (s.port.get .rs).queue = before ++ completionAccesses last

/-- What stands once the results have been written. -/
structure Drained (s t : State) (init : List Completion) (last : Completion) : Prop where
  same : Same [.mem, .port, .rs, .cause] s t
  rs : t.rs = { s.rs with
    reloadCell := none, completions := [], outstanding := clearFlags s.rs.outstanding (init ++ [last]) }
  cause : t.hasCause .req = true
  idle : ∀ b, b ≠ .rs → (s.port.get b).queue = [] → t.port.get b = s.port.get b
  stands : s.mem.wf = true → ∀ k, ¬ s.port.mayWrite k → ¬ inCells (init ++ [last]) k → t.mem.read k = s.mem.read k
  written : s.mem.wf = true → ∃ m : Memory, m.wf = true ∧ ∀ k, ¬ s.port.othersMayWrite .rs k →
    t.mem.read k = (m.after (completionAccesses last)).read k

/-- The last result is written. -/
theorem Draining.drained_last {s : State} {last : Completion} (h : Draining s [] last) :
    Drained s s.afterResult [] last := by
  obtain ⟨hlist, hsweep, hphase, hreload, hwrites⟩ := h
  obtain ⟨before, hq⟩ := hwrites rfl
  have hmem := afterResult_mem hlist hsweep hphase
  have hrs : s.afterResult.rs = { s.rs with
      reloadCell := none, completions := [], outstanding := clearFlags s.rs.outstanding [last] } := by
    rw [← hreload]
    exact afterResult_rs hlist hsweep hphase
  refine ⟨afterResult_same hlist hsweep hphase, hrs, afterResult_cause hlist hsweep hphase,
    fun b hb he => ?_, fun hwf k hk _ => ?_, fun hwf => ⟨s.mem.after before, Memory.after_wf _ hwf, fun k hk => ?_⟩⟩
  · rw [afterResult_get_ne hlist hsweep hphase hb]
    exact serveUntil_get_of_empty he
  · rw [hmem]
    exact serveUntil_read hwf hk
  · obtain ⟨as, has⟩ := completionAccesses_eq_concat last
    rw [has, ← List.append_assoc] at hq
    rw [hmem, finishWrite_made hq rfl hwf hk, List.append_assoc, ← has, Memory.after_append]

/-- A result before the last is written, and the rest are still to be. -/
theorem Draining.next {s : State} {x last : Completion} {init : List Completion} (h : Draining s (x :: init) last) :
    Draining s.afterResult init last := by
  obtain ⟨hlist, hsweep, hphase, hreload, -⟩ := h
  have hdl : s.dl = s.afterResult.dl := (afterResult_same hlist hsweep hphase).get .dl
  have hrs := afterResult_rs hlist hsweep hphase
  refine ⟨by rw [hrs]; rfl, by rw [hrs]; exact hsweep, hdl ▸ hphase, by rw [hrs]; exact hreload, fun hinit =>
    ⟨((finishWrite .rs .complete s).port.get .rs).queue, ?_⟩⟩
  subst hinit
  exact (afterResult_queue hlist hsweep hphase).trans (by simp)

theorem Draining.drained_cons {s t : State} {x last : Completion} {init : List Completion}
    (h : Draining s (x :: init) last) (ht : Drained s.afterResult t init last) : Drained s t (x :: init) last := by
  obtain ⟨hlist, hsweep, hphase, hreload, -⟩ := h
  have hmem := afterResult_mem hlist hsweep hphase
  have hrs := afterResult_rs hlist hsweep hphase
  have joined : ∀ {b : Block} {a : Access}, a ∈ (s.afterResult.port.get b).queue → _ := fun {b a} =>
    mem_afterResult (b := b) (a := a) hlist hsweep hphase
  have hwf' : s.mem.wf = true → s.afterResult.mem.wf = true := fun hwf => by
    rw [hmem]
    exact finishWrite_wf _ _ _ hwf
  refine ⟨(afterResult_same hlist hsweep hphase).trans ht.same, ?_, ht.cause, fun b hb he => ?_, fun hwf k hk hout => ?_,
    fun hwf => ?_⟩
  · rw [ht.rs, hrs]
    rfl
  · have hs : s.afterResult.port.get b = s.port.get b :=
      (afterResult_get_ne hlist hsweep hphase hb).trans (serveUntil_get_of_empty he)
    rw [ht.idle b hb (by rw [hs, he]), hs]
  · have hk' : ¬ s.afterResult.port.mayWrite k := by
      rintro ⟨b, a, ha, hw⟩
      rcases joined ha with ha | ⟨-, y, hy, ha⟩
      · exact hk ⟨b, a, ha, hw⟩
      · obtain ⟨j, v, rfl, hlo, hhi⟩ := mem_completionAccesses ha
        have hj : j = k := by simpa [Access.writes] using hw
        exact hout ⟨y, by simp only [List.cons_append, List.mem_cons]; exact Or.inr hy, hj ▸ hlo, hj ▸ hhi⟩
    rw [ht.stands (hwf' hwf) k hk' (fun ⟨y, hy, hr⟩ => hout ⟨y, List.mem_cons_of_mem _ hy, hr⟩), hmem]
    exact serveUntil_read hwf hk
  · obtain ⟨m, hm, hw⟩ := ht.written (hwf' hwf)
    refine ⟨m, hm, fun k hk => hw k ?_⟩
    rintro ⟨b, hb, a, ha, hwr⟩
    rcases joined ha with ha | ⟨hb', -⟩
    · exact hk ⟨b, hb, a, ha, hwr⟩
    · exact hb hb'

/-- The results up to the last, which is the reload cell's, are all written. -/
theorem drainCompletions_drained {s : State} {init : List Completion} {last : Completion} (h : Draining s init last) :
    Drained s (drainCompletions last.cell (init.length + 1) s) init last := by
  have waits : ∀ {s : State} {init : List Completion}, Draining s init last →
      ∀ n, drainCompletions last.cell (n + 1) s = drainCompletions last.cell n s.afterResult := fun {s init} h n =>
    if_pos (by rw [State.completionWaits, h.list]; simp)
  induction init generalizing s with
  | nil =>
    rw [waits h]
    exact h.drained_last
  | cons x init ih =>
    rw [List.length_cons, waits h]
    exact h.drained_cons (ih h.next)

/-! ### The reload cell at a write of RUN = 0 (R16, R144) -/

theorem abandonReload_of_none {s : State} (h : s.rs.reloadCell = none) : abandonReload s = s := by
  unfold abandonReload
  rw [h]

/-- The result of the reload cell, as RUN = 0 gives it. -/
def State.abandonment (s : State) (c : Nat) : Completion := ⟨c, .abandoned, 0, s.clock⟩

theorem abandonReload_of_some {s : State} {c : Nat} (h : s.rs.reloadCell = some c) : abandonReload s =
    drainCompletions c (s.rs.completions.length + 1)
      (complete c .abandoned 0 { s with rs := { s.rs with reloadCell := none } }) := by
  have hr : completeReload .abandoned s = complete c .abandoned 0 { s with rs := { s.rs with reloadCell := none } } := by
    unfold completeReload
    rw [h]
  unfold abandonReload
  rw [h]
  show drainCompletions c (completeReload .abandoned s).rs.completions.length (completeReload .abandoned s) = _
  rw [hr, complete_rs, List.length_append]
  rfl

/-- What the Request Scanner waits with once a result has joined the list: the writes of the only one (R140). -/
theorem complete_queue (c : Nat) (r : RequestResult) (v : Nat) (s : State) :
    ((complete c r v s).port.get .rs).queue = (s.port.get .rs).queue ++
      if s.rs.completions = [] then completionAccesses ⟨c, r, v, s.clock⟩ else [] := by
  unfold complete
  dsimp only
  by_cases h : s.rs.completions = []
  · rw [if_pos (by rw [h]; rfl), if_pos h, enqueueAccesses_get_self]
  · rw [if_neg (by simpa using h), if_neg h, List.append_nil]

/-- Every result that waits and the reload cell's are written. -/
theorem abandonReload_drained {s : State} {c : Nat} (h : s.rs.reloadCell = some c) (hsweep : s.rs.sweep = .idle)
    (hphase : s.dl.phase = .idle) : Drained s (abandonReload s) s.rs.completions (s.abandonment c) := by
  rw [abandonReload_of_some h]
  generalize hu : complete c .abandoned 0 { s with rs := { s.rs with reloadCell := none } } = u
  have hrs : u.rs = { s.rs with reloadCell := none, completions := s.rs.completions ++ [s.abandonment c] } := by
    rw [← hu, complete_rs]
    rfl
  have hsu : Same [.rs, .port] s u := by
    rw [← hu]
    simp
  have hdl : s.dl = u.dl := hsu.get .dl
  have hmem : s.mem = u.mem := hsu.get .mem
  have hq : (u.port.get .rs).queue = (s.port.get .rs).queue ++
      if s.rs.completions = [] then completionAccesses (s.abandonment c) else [] := by
    rw [← hu, complete_queue]
    rfl
  have hget : ∀ b : Block, b ≠ .rs → u.port.get b = s.port.get b := fun b hb => by
    rw [← hu, complete_get_ne hb]
  have start : Draining u s.rs.completions (s.abandonment c) := by
    refine ⟨by rw [hrs], by rw [hrs]; exact hsweep, hdl ▸ hphase, by rw [hrs], fun he => ⟨_, by rw [hq, if_pos he]⟩⟩
  have done := drainCompletions_drained start
  refine ⟨(hsu.mono (by decide)).trans done.same, done.rs.trans (by rw [hrs]), done.cause, fun b hb he => ?_,
    fun hwf k hk hout => ?_, fun hwf => ?_⟩
  · rw [← hget b hb] at he
    exact (done.idle b hb he).trans (hget b hb)
  · rw [hmem] at hwf ⊢
    refine done.stands hwf k ?_ hout
    rintro ⟨b, a, ha, hw⟩
    by_cases hb : b = .rs
    · subst hb
      rw [hq, List.mem_append] at ha
      rcases ha with ha | ha
      · exact hk ⟨.rs, a, ha, hw⟩
      · split at ha
        · obtain ⟨j, v, rfl, hlo, hhi⟩ := mem_completionAccesses ha
          have hj : j = k := by simpa [Access.writes] using hw
          exact hout ⟨s.abandonment c, by simp, hj ▸ hlo, hj ▸ hhi⟩
        · simp at ha
    · rw [hget b hb] at ha
      exact hk ⟨b, a, ha, hw⟩
  · obtain ⟨m, hm, hw⟩ := done.written (hmem ▸ hwf)
    refine ⟨m, hm, fun k hk => hw k ?_⟩
    rintro ⟨b, hb, a, ha, hwr⟩
    rw [hget b hb] at ha
    exact hk ⟨b, hb, a, ha, hwr⟩

end Sys2Proof.Machine

/-! ## A CONTROL write with RUN clear (R16, R36, R38, R50, R68, R80, R118, R135, R137, R154) -/

namespace Sys2Proof.Machine

/-! ### Which ports the blocks' parts of the way to HALTED touch -/

theorem setJob_get_ne {b : Block} (h : b ≠ .ce) (j : Option EngineJob) (s : State) :
    (setJob j s).port.get b = s.port.get b := by
  unfold setJob
  dsimp only
  split
  · rfl
  · exact startWrite_get_ne h _ _ _ _

/-- The engine's state is written where it changes (R45). -/
theorem setJob_none_get_ce (s : State) : (setJob none s).port.get .ce =
    ⟨(s.port.get .ce).queue ++ mirrorBytes (if s.engineState = .idle then [] else [(0x0101A5, 0)]),
      (s.port.get .ce).buf⟩ := by
  unfold setJob
  dsimp only
  have hidle : ({ s with ce := { s.ce with job := none } } : State).engineState = .idle := rfl
  rw [hidle]
  by_cases h : s.engineState = .idle
  · rw [if_pos h.symm, if_pos h]
    simp [mirrorBytes]
  · rw [if_neg (Ne.symm h), if_neg h]
    exact startWrite_get_self ..

theorem haltEngines_get_ne {b : Block} (hce : b ≠ .ce) (hsq : b ≠ .sq) (s : State) :
    (haltEngines s).port.get b = s.port.get b := by
  unfold haltEngines
  rw [keepAccesses_get_ne hsq]
  show (setJob none _).port.get b = _
  rw [setJob_get_ne hce, keepAccesses_get_ne hce]

theorem haltEngines_spec (s : State) :
    (haltEngines s).ce = { s.ce with job := none, locks := [] } ∧ (haltEngines s).sq = { s.sq with job := none } ∧
    (haltEngines s).port.get .ce = ⟨(s.port.get .ce).queue.filter (Access.isFor .mirror) ++
      mirrorBytes (if s.engineState = .idle then [] else [(0x0101A5, 0)]), []⟩ ∧
    (haltEngines s).port.get .sq = ⟨(s.port.get .sq).queue.filter (Access.isFor .mirror), []⟩ := by
  generalize hk : keepAccesses .ce Access.isMirror { s with ce := { s.ce with locks := [] } } = k
  have hce : (setJob none k).ce = { k.ce with job := none } :=
    (congrArg (fun x : State => x.ce) (setJob_visible none k) : _)
  have hsq : k.sq = (setJob none k).sq := Same.get (ps := [.ce, .port]) (by simp) .sq
  have hh : haltEngines s = keepAccesses .sq Access.isMirror
      { setJob none k with sq := { (setJob none k).sq with job := none } } := by
    rw [← hk]
    rfl
  have state : k.engineState = s.engineState := hk ▸ rfl
  refine ⟨?_, ?_, ?_, ?_⟩
  · rw [hh]
    refine hce.trans ?_
    rw [← hk]
    rfl
  · rw [hh]
    show ({ (setJob none k).sq with job := none } : Sequencer) = _
    rw [← hsq, ← hk]
    rfl
  · rw [hh, keepAccesses_get_ne (by decide)]
    show (setJob none k).port.get .ce = _
    rw [setJob_none_get_ce, state, ← hk, keepAccesses_get_self]
    rfl
  · rw [hh, keepAccesses_get_self]
    show (⟨((setJob none k).port.get .sq).queue.filter Access.isMirror, []⟩ : BlockPort) = _
    rw [setJob_get_ne (by decide), ← hk, keepAccesses_get_ne (by decide)]
    rfl

theorem haltMotion_port (s : State) : (haltMotion s).port = s.port := by
  unfold haltMotion
  dsimp only
  split <;> rfl

/-- The motion queue is emptied, and from the first entry to LOADING on the mirrors are stale (R118). -/
theorem haltMotion_ms (s : State) : (haltMotion s).ms = { s.ms with
    queue := [], committed := 0, energised := 0
    mirror := if s.dl.loadCause.isSome then { s.ms.mirror with stale := true } else s.ms.mirror } := by
  unfold haltMotion State.hasEnteredLoading
  dsimp only
  split <;> rfl

theorem haltLink_eq (s : State) : haltLink s = { s with lc := { s.lc with
    boards := mapVector (fun b => ({ b with outgoing := [], openFrame := none } : BoardLink)) s.lc.boards
    exchange := .idle, draining := s.lc.draining ++ s.lc.exchange.unsent
    inRound := false, clears := [] } } := by
  unfold haltLink
  rw [endExchange_eq]

/-! ### The work in flight is ended -/

/-- The blocks' work is ended; the reload cell is still held. -/
def State.workEnded (s : State) : State :=
  haltLink (haltMotion (haltImages (haltCrescendo (haltEngines (haltDescription (endSweep s))))))

theorem haltWork_eq (s : State) : haltWork s = changePart .halted (abandonReload s.workEnded) := rfl

/-- The work of every block but the Request Scanner has ended from `s` to `v`: what each block still holds. -/
structure WorkEnded (s v : State) : Prop where
  same : Same [.mem, .part, .cause, .rs, .port, .dl, .ce, .sq, .cu, .ru, .ms, .lc] s v
  dl : v.dl = { s.dl with phase := .idle }
  ce : v.ce = { s.ce with job := none, locks := [] }
  sq : v.sq = { s.sq with job := none }
  cu : v.cu = { s.cu with loading := none }
  ru : v.ru = { s.ru with mirror := { s.ru.mirror with stale := false, updating := false } }
  ms : v.ms = { s.ms with
    queue := [], committed := 0, energised := 0
    mirror := if s.dl.loadCause.isSome then { s.ms.mirror with stale := true } else s.ms.mirror }
  lc : v.lc = { s.lc with
    boards := mapVector (fun b => ({ b with outgoing := [], openFrame := none } : BoardLink)) s.lc.boards
    exchange := .idle, draining := s.lc.draining ++ s.lc.exchange.unsent
    inRound := false, clears := [] }

/-- What then touches memory, the port, the Request Scanner and the part state keeps it so. -/
theorem WorkEnded.of_same {s v u : State} (h : WorkEnded s v) (k : Same [.mem, .port, .rs, .cause, .part] v u) :
    WorkEnded s u := by
  have dl : v.dl = u.dl := k.get .dl
  have ce : v.ce = u.ce := k.get .ce
  have sq : v.sq = u.sq := k.get .sq
  have cu : v.cu = u.cu := k.get .cu
  have ru : v.ru = u.ru := k.get .ru
  have ms : v.ms = u.ms := k.get .ms
  have lc : v.lc = u.lc := k.get .lc
  exact ⟨h.same.trans (k.mono (by decide)), dl ▸ h.dl, ce ▸ h.ce, sq ▸ h.sq, cu ▸ h.cu, ru ▸ h.ru, ms ▸ h.ms, lc ▸ h.lc⟩

/-- What every block holds once its work is ended. -/
theorem workEnded_spec (s : State) :
    Same [.rs, .port, .dl, .ce, .sq, .cu, .ru, .ms, .lc] s s.workEnded ∧
    s.workEnded.rs = { s.rs with sweep := .idle, scanPending := false, outstanding := s.flagsAfterSweep } ∧
    WorkEnded s s.workEnded := by
  generalize hd : haltDescription (endSweep s) = d
  generalize he : haltEngines d = e
  generalize hc : haltCrescendo e = c
  generalize hi : haltImages c = i
  have hw : s.workEnded = haltLink (haltMotion i) := by
    subst hd he hc hi
    rfl
  have sd : Same [.rs, .dl, .port] s d := hd ▸ by simp
  have de : Same [.ce, .sq, .port] d e := he ▸ by simp
  have ec : Same [.cu, .port] e c := hc ▸ by simp
  have ci : Same [.ru, .port] c i := hi ▸ by simp
  have iw : Same [.ms, .lc] i s.workEnded := hw ▸ by simp
  have dce : s.ce = d.ce := sd.get .ce
  have dsq : s.sq = d.sq := sd.get .sq
  obtain ⟨ece, esq, -⟩ := haltEngines_spec d
  rw [he, ← dce] at ece
  rw [he, ← dsq] at esq
  have ecu : s.cu = e.cu := (sd.get .cu).trans (de.get .cu)
  have cru : s.ru = c.ru := (sd.get .ru).trans ((de.get .ru).trans (ec.get .ru))
  have ims : s.ms = i.ms := (sd.get .ms).trans ((de.get .ms).trans ((ec.get .ms).trans (ci.get .ms)))
  have ilc : s.lc = (haltMotion i).lc :=
    (sd.get .lc).trans ((de.get .lc).trans ((ec.get .lc).trans ((ci.get .lc).trans (Same.get (ps := [.ms]) (by simp) .lc))))
  have ddl : d.dl = i.dl := (de.get .dl).trans ((ec.get .dl).trans (ci.get .dl))
  have cause : i.dl.loadCause = s.dl.loadCause := by rw [← ddl, ← hd]; rfl
  have total : Same [.rs, .port, .dl, .ce, .sq, .cu, .ru, .ms, .lc] s s.workEnded :=
    (sd.mono (by decide)).trans ((de.mono (by decide)).trans ((ec.mono (by decide)).trans
      ((ci.mono (by decide)).trans (iw.mono (by decide)))))
  refine ⟨total, ?_, total.mono (by decide), ?_, ?_, ?_, ?_, ?_, ?_, ?_⟩
  · have h : d.rs = s.workEnded.rs := (de.get .rs).trans ((ec.get .rs).trans ((ci.get .rs).trans (iw.get .rs)))
    rw [← h, ← hd]
    rfl
  · have h : i.dl = s.workEnded.dl := iw.get .dl
    rw [← h, ← ddl, ← hd]
    rfl
  · have h : e.ce = s.workEnded.ce := (ec.get .ce).trans ((ci.get .ce).trans (iw.get .ce))
    rw [← h, ece]
  · have h : e.sq = s.workEnded.sq := (ec.get .sq).trans ((ci.get .sq).trans (iw.get .sq))
    rw [← h, esq]
  · have h : c.cu = s.workEnded.cu := (ci.get .cu).trans (iw.get .cu)
    rw [← h, ← hc, ecu]
    rfl
  · have h : i.ru = s.workEnded.ru := iw.get .ru
    rw [← h, ← hi, cru]
    rfl
  · have h : (haltMotion i).ms = s.workEnded.ms := by rw [hw, haltLink_eq]
    rw [← h, haltMotion_ms, cause, ims]
  · rw [hw, haltLink_eq, ilc]

/-! ### What the blocks wait with once their work is ended -/

theorem endSweep_get_ne {b : Block} (h : b ≠ .rs) (s : State) : (endSweep s).port.get b = s.port.get b :=
  keepAccesses_get_ne h _ _

theorem haltDescription_get_ne {b : Block} (h : b ≠ .dl) (s : State) :
    (haltDescription s).port.get b = s.port.get b :=
  keepAccesses_get_ne h _ _

theorem haltCrescendo_get_ne {b : Block} (h : b ≠ .cu) (s : State) : (haltCrescendo s).port.get b = s.port.get b :=
  keepAccesses_get_ne h _ _

theorem haltImages_get_ne {b : Block} (h : b ≠ .ru) (s : State) : (haltImages s).port.get b = s.port.get b :=
  keepAccesses_get_ne h _ _

theorem workEnded_port (s : State) : s.workEnded.port =
    (haltImages (haltCrescendo (haltEngines (haltDescription (endSweep s))))).port := by
  rw [State.workEnded, haltLink_eq]
  exact haltMotion_port _

/-- The Registration Unit waits with nothing; the Request Scanner keeps its writes but for an ACCEPTED; the engine and the
Sequencer keep their mirror writes. -/
theorem workEnded_queues (s : State) :
    s.workEnded.port.get .ru = {} ∧
    s.workEnded.port.get .rs = ⟨(s.port.get .rs).queue.filter Access.outlivesSweep, []⟩ ∧
    s.workEnded.port.get .ce = ⟨(s.port.get .ce).queue.filter (Access.isFor .mirror) ++
      mirrorBytes (if s.engineState = .idle then [] else [(0x0101A5, 0)]), []⟩ ∧
    s.workEnded.port.get .sq = ⟨(s.port.get .sq).queue.filter (Access.isFor .mirror), []⟩ := by
  obtain ⟨-, -, hce, hsq⟩ := haltEngines_spec (haltDescription (endSweep s))
  rw [haltDescription_get_ne (by decide), endSweep_get_ne (by decide)] at hce hsq
  rw [workEnded_port]
  refine ⟨?_, ?_, ?_, ?_⟩
  · refine (keepAccesses_get_self _ _ _).trans ?_
    rw [List.filter_false]
  · rw [haltImages_get_ne (by decide), haltCrescendo_get_ne (by decide), haltEngines_get_ne (by decide) (by decide),
      haltDescription_get_ne (by decide)]
    exact keepAccesses_get_self _ _ _
  · rw [haltImages_get_ne (by decide), haltCrescendo_get_ne (by decide), hce]
    rfl
  · rw [haltImages_get_ne (by decide), haltCrescendo_get_ne (by decide), hsq]

theorem mem_of_keepAccesses {b c : Block} {keep : Access → Bool} {s : State} {x : Access}
    (h : x ∈ ((keepAccesses b keep s).port.get c).queue) : x ∈ (s.port.get c).queue := by
  by_cases hc : c = b
  · subst hc
    rw [keepAccesses_get_self] at h
    exact List.mem_of_mem_filter h
  · rwa [keepAccesses_get_ne hc] at h

theorem mem_endSweep {b : Block} {s : State} {x : Access} (h : x ∈ ((endSweep s).port.get b).queue) :
    x ∈ (s.port.get b).queue := by
  unfold endSweep at h
  have key := mem_of_keepAccesses h
  exact key

theorem mem_haltDescription {b : Block} {s : State} {x : Access} (h : x ∈ ((haltDescription s).port.get b).queue) :
    x ∈ (s.port.get b).queue := by
  unfold haltDescription at h
  have key := mem_of_keepAccesses h
  exact key

theorem mem_haltCrescendo {b : Block} {s : State} {x : Access} (h : x ∈ ((haltCrescendo s).port.get b).queue) :
    x ∈ (s.port.get b).queue := by
  unfold haltCrescendo at h
  have key := mem_of_keepAccesses h
  exact key

theorem mem_haltImages {b : Block} {s : State} {x : Access} (h : x ∈ ((haltImages s).port.get b).queue) :
    x ∈ (s.port.get b).queue := by
  unfold haltImages at h
  have key := mem_of_keepAccesses h
  exact key

theorem mem_haltEngines {b : Block} {s : State} {x : Access} (h : x ∈ ((haltEngines s).port.get b).queue) :
    x ∈ (s.port.get b).queue ∨ (b = .ce ∧ x = .write .mirror 0x0101A5 0) := by
  obtain ⟨-, -, hce, hsq⟩ := haltEngines_spec s
  by_cases hb : b = .ce
  · subst hb
    rw [hce, List.mem_append] at h
    rcases h with h | h
    · exact Or.inl (List.mem_of_mem_filter h)
    · split at h
      · simp [mirrorBytes] at h
      · exact Or.inr ⟨rfl, List.mem_singleton.1 h⟩
  · by_cases hb' : b = .sq
    · subst hb'
      rw [hsq] at h
      exact Or.inl (List.mem_of_mem_filter h)
    · rw [haltEngines_get_ne hb hb'] at h
      exact Or.inl h

/-- No access joins the port but the write of the engine state's mirror. -/
theorem mem_workEnded {b : Block} {s : State} {x : Access} (h : x ∈ (s.workEnded.port.get b).queue) :
    x ∈ (s.port.get b).queue ∨ (b = .ce ∧ x = .write .mirror 0x0101A5 0) := by
  rw [workEnded_port] at h
  exact (mem_haltEngines (mem_haltCrescendo (mem_haltImages h))).imp_left (fun h => mem_endSweep (mem_haltDescription h))

theorem mayWrite_workEnded {s : State} {k : Nat} (hk : ¬ s.port.mayWrite k) (hne : k ≠ 0x0101A5) :
    ¬ s.workEnded.port.mayWrite k := by
  rintro ⟨b, x, hx, hw⟩
  rcases mem_workEnded hx with hx | ⟨-, rfl⟩
  · exact hk ⟨b, x, hx, hw⟩
  · exact hne ((show 0x0101A5 = k by simpa [Access.writes] using hw).symm)

theorem othersMayWrite_workEnded {s : State} {c : Block} {k : Nat} (hk : ¬ s.port.othersMayWrite c k)
    (hne : k ≠ 0x0101A5) : ¬ s.workEnded.port.othersMayWrite c k := by
  rintro ⟨b, hb, x, hx, hw⟩
  rcases mem_workEnded hx with hx | ⟨-, rfl⟩
  · exact hk ⟨b, hb, x, hx, hw⟩
  · exact hne ((show 0x0101A5 = k by simpa [Access.writes] using hw).symm)

end Sys2Proof.Machine

/-! ## A write of RUN = 0 from its command on (R16, R36, R118, R154) -/

namespace Sys2Proof.Machine

/-! ### The way to HALTED from LOADING, CENSUS or RUNNING -/

theorem haltWork_of_no_reload {s : State} (h : s.rs.reloadCell = none) : haltWork s = changePart .halted s.workEnded := by
  obtain ⟨-, hrs, -⟩ := workEnded_spec s
  rw [haltWork_eq, abandonReload_of_none (by rw [hrs]; exact h)]

/-- The results up to the reload cell's are written from where the blocks' work is ended. -/
theorem abandonReload_workEnded_drained {s : State} {c : Nat} (h : s.rs.reloadCell = some c) :
    Drained s.workEnded (abandonReload s.workEnded) s.rs.completions ⟨c, .abandoned, 0, s.clock⟩ := by
  obtain ⟨hsame, hrs, hended⟩ := workEnded_spec s
  have hclock : s.clock = s.workEnded.clock := hsame.get .clock
  have key := abandonReload_drained (s := s.workEnded) (c := c) (by rw [hrs]; exact h) (by rw [hrs]) (by rw [hended.dl])
  rw [State.abandonment, ← hclock, hrs] at key
  exact key

theorem haltWork_same_workEnded (s : State) : Same [.mem, .port, .rs, .cause, .part] s.workEnded (haltWork s) := by
  cases h : s.rs.reloadCell with
  | none =>
    rw [haltWork_of_no_reload h]
    simp
  | some c =>
    rw [haltWork_eq]
    exact (changePart_same _ (by decide)).2 ((abandonReload_workEnded_drained h).same.mono (by decide))

theorem haltWork_workEnded (s : State) : WorkEnded s (haltWork s) :=
  (workEnded_spec s).2.2.of_same (haltWork_same_workEnded s)

/-- No sweep and no reload cell is left, and the Registration Unit waits with nothing. -/
theorem haltWork_ends (s : State) : (haltWork s).rs.sweep = .idle ∧ (haltWork s).rs.scanPending = false ∧
    (haltWork s).rs.reloadCell = none ∧ (haltWork s).port.get .ru = {} := by
  obtain ⟨-, hrs, -⟩ := workEnded_spec s
  obtain ⟨hru, -⟩ := workEnded_queues s
  cases h : s.rs.reloadCell with
  | none =>
    rw [haltWork_of_no_reload h, changePart_rs, hrs]
    exact ⟨rfl, rfl, h, hru⟩
  | some c =>
    have done := abandonReload_workEnded_drained h
    rw [haltWork_eq, changePart_rs, done.rs, hrs]
    exact ⟨rfl, rfl, rfl, (done.idle .ru (by decide) (by rw [hru])).trans hru⟩

theorem hasCause_changePart {s : State} {f : CauseFlag} (p : PartState) (h : s.hasCause f = true) :
    (changePart p s).hasCause f = true := by
  show (setBit s.cause CauseFlag.state.bit true).getLsbD f.bit = true
  rw [getLsbD_setBit]
  split
  · rfl
  · exact h

section
variable {s : State} {c : Nat} (h : s.rs.reloadCell = some c)
include h

/-- No result waits once the reload cell's is written (R16, R140). -/
theorem haltWork_reload_requests {held : List Completion}
    (hheld : held = s.rs.completions ++ [⟨c, .abandoned, 0, s.clock⟩]) : (haltWork s).rs.completions = [] ∧ (haltWork s).hasCause .req = true ∧
    ∀ k, (haltWork s).rs.outstanding.getLsbD k =
      (s.flagsAfterSweep.getLsbD k && !held.any (fun x => x.cell == k)) := by
  obtain ⟨-, hrs, -⟩ := workEnded_spec s
  have done := abandonReload_workEnded_drained h
  rw [haltWork_eq, changePart_rs, done.rs, hrs, hheld]
  exact ⟨rfl, hasCause_changePart _ done.cause, getLsbD_clearFlags _ _⟩

theorem haltWork_reload_cell (hwf : s.mem.wf = true)
    (hc : ∀ k, 0x011000 + 16 * c ≤ k → k < 0x011000 + 16 * c + 16 → ¬ s.port.othersMayWrite .rs k) :
    (haltWork s).mem.read (0x011000 + 16 * c) = 3 ∧ (haltWork s).mem.read (0x011000 + 16 * c + 2) = 9 ∧
    (haltWork s).mem.readBytes (0x011000 + 16 * c + 8) 4 = [0, 0, 0, 0] ∧
    (haltWork s).mem.readBytes (0x011000 + 16 * c + 12) 4 = bytesLE 4 s.clock.toNat := by
  obtain ⟨hsame, -⟩ := workEnded_spec s
  have hmem : s.mem = s.workEnded.mem := hsame.get .mem
  obtain ⟨m, hm, hread⟩ := (abandonReload_workEnded_drained h).written (hmem ▸ hwf)
  obtain ⟨hdone, hcode, hvalue, htime⟩ := completion_written ⟨c, .abandoned, 0, s.clock⟩ hm
  have bytes : ∀ k, 0x011000 + 16 * c ≤ k → k < 0x011000 + 16 * c + 16 → (haltWork s).mem.read k =
      (m.after (completionAccesses ⟨c, .abandoned, 0, s.clock⟩)).read k := fun k hlo hhi =>
    hread k (othersMayWrite_workEnded (hc k hlo hhi) (by omega))
  have zero : bytesLE 4 0 = [0, 0, 0, 0] := by decide
  refine ⟨(bytes _ (by omega) (by omega)).trans hdone, (bytes _ (by omega) (by omega)).trans hcode, ?_, ?_⟩
  · exact (Memory.readBytes_congr (fun k hlo hhi => bytes k (by omega) (by omega))).trans (hvalue.trans zero)
  · exact (Memory.readBytes_congr (fun k hlo hhi => bytes k (by omega) (by omega))).trans htime

theorem haltWork_reload_stands {held : List Completion}
    (hheld : held = s.rs.completions ++ [⟨c, .abandoned, 0, s.clock⟩]) (hwf : s.mem.wf = true) {k : Nat} (hk : ¬ s.port.mayWrite k) (hne : k ≠ 0x0101A5)
    (hout : ∀ x ∈ held, k < 0x011000 + 16 * x.cell ∨ 0x011000 + 16 * x.cell + 16 ≤ k) :
    (haltWork s).mem.read k = s.mem.read k := by
  obtain ⟨hsame, -⟩ := workEnded_spec s
  have hmem : s.mem = s.workEnded.mem := hsame.get .mem
  rw [hmem] at hwf ⊢
  refine (abandonReload_workEnded_drained h).stands hwf k (mayWrite_workEnded hk hne) ?_
  rintro ⟨x, hx, hlo, hhi⟩
  have := hout x (hheld ▸ hx)
  omega

end

/-! ### Both mirror groups that RUN = 0 touches, in every part state (R36, R118) -/

/-- What every part state's write of RUN = 0 makes of the Registration Unit and the Motion Scheduler. -/
structure MirrorsHalted (s v : State) : Prop where
  reset : v.inReset = s.inReset
  ru : v.ru = { s.ru with mirror := { s.ru.mirror with stale := false, updating := false } }
  port : v.port.get .ru = {}
  images : v.imageValues = s.imageValues
  ms : v.ms = { s.ms with
    queue := [], committed := 0, energised := 0
    mirror := if s.dl.loadCause.isSome then { s.ms.mirror with stale := true } else s.ms.mirror }

theorem haltWork_mirrorsHalted (s : State) : MirrorsHalted s (haltWork s) := by
  obtain ⟨-, -, -, hport⟩ := haltWork_ends s
  have h := haltWork_workEnded s
  refine ⟨(h.same.get .inReset).symm, h.ru, hport, ?_, h.ms⟩
  have cs : s.cs = (haltWork s).cs := h.same.get .cs
  rw [State.imageValues, h.ru, h.ce, ← cs]
  rfl

theorem haltMotion_haltImages_mirrorsHalted (s : State) : MirrorsHalted s (haltMotion (haltImages s)) := by
  have hs : Same [.ms] (haltImages s) (haltMotion (haltImages s)) := by simp
  have ru : (haltImages s).ru = (haltMotion (haltImages s)).ru := hs.get .ru
  have cs : (haltImages s).cs = (haltMotion (haltImages s)).cs := hs.get .cs
  have ce : (haltImages s).ce = (haltMotion (haltImages s)).ce := hs.get .ce
  refine ⟨(hs.get .inReset).symm, ru.symm.trans rfl, ?_, ?_, haltMotion_ms _⟩
  · rw [haltMotion_port]
    refine (keepAccesses_get_self _ _ _).trans ?_
    rw [List.filter_false]
  · rw [State.imageValues, ← ru, ← cs, ← ce]
    rfl

theorem MirrorsHalted.changePart {s v : State} (h : MirrorsHalted s v) (p : PartState) :
    MirrorsHalted s (changePart p v) :=
  ⟨h.reset, h.ru, h.port, h.images, h.ms⟩

theorem halt_mirrorsHalted (s : State) : MirrorsHalted s (halt s) := by
  unfold halt
  split
  · exact haltMotion_haltImages_mirrorsHalted s
  · exact (haltMotion_haltImages_mirrorsHalted s).changePart _
  all_goals exact haltWork_mirrorsHalted s

theorem Motion.emptied_eq {m : Motion} (hq : m.queue = []) (hc : m.committed = 0) (he : m.energised = 0) :
    ({ m with queue := [], committed := 0, energised := 0 } : Motion) = m := by
  cases m
  cases hq
  cases hc
  cases he
  rfl

section
variable {s s' v t : State} (hr : s'.inReset = false) (hm : MirrorsHalted s' v) (h : finish s v = .next t)
include hr hm h

/-- No image update is left or begins, but for a full one that was still to begin (R36). -/
theorem MirrorsHalted.finish_image (hru : s'.ru = s.ru) (hs : s'.imageValues = s.imageValues) :
    (s.ru.mirror.full = false →
      t.ru.mirror = { s.ru.mirror with stale := false, updating := false } ∧ t.port.get .ru = {}) ∧
    (s.ru.mirror.full = true → t.ru.mirror = ⟨nextOdd s.ru.mirror.count, false, true, false, t.imageValues⟩) := by
  obtain ⟨begins, stands⟩ := Machine.finish_image (m := { s.ru.mirror with stale := false, updating := false })
    (hm.reset.trans hr) h (by rw [hm.ru, hm.images, hru, hs]; simp [Mirror.mark])
  refine ⟨fun hfull => ?_, fun hfull => (begins (Mirror.begins_of_full hfull)).1⟩
  obtain ⟨hmirror, hport⟩ := stands (by simp [Mirror.begins, hfull])
  exact ⟨hmirror, hport.trans hm.port⟩

/-- From the first entry to LOADING after a hard reset on the motion mirrors are stale (R118). -/
theorem MirrorsHalted.motion_isMarked (hms : s'.ms = s.ms) (hdl : s'.dl = s.dl) (hload : s.dl.loadCause ≠ none) :
    s.ms.mirror.isMarked t.ms.mirror t.motionValues := by
  have hsome : s'.dl.loadCause.isSome = true := by rw [hdl]; exact Option.isSome_iff_ne_none.2 hload
  have hv : v.ms.mirror = { s.ms.mirror with stale := true } := by rw [hm.ms, if_pos hsome, hms]
  obtain ⟨begins, stands⟩ := Machine.finish_motion (m := { s.ms.mirror with stale := true })
    (hm.reset.trans hr) h (by rw [hv]; rfl)
  refine ⟨fun hup hfull => (stands (by simp [Mirror.begins, hup, hfull])).1, fun hor => (begins ?_).1⟩
  obtain hup | hfull := hor
  · simp [Mirror.begins, hup]
  · exact Mirror.begins_of_full hfull

/-- Before it an empty queue's mirrors stand (R118). -/
theorem MirrorsHalted.motion_stands (hms : s'.ms = s.ms) (hdl : s'.dl = s.dl) (hload : s.dl.loadCause = none)
    (hq : s.ms.queue = []) (hc : s.ms.committed = 0) (he : s.ms.energised = 0) (hset : s.ms.mirror.settled)
    (hup : s.ms.mirror.updating = false) :
    t.ms.mirror = s.ms.mirror ∧ t.port.get .ms = v.port.get .ms := by
  have hv : v.ms = s.ms := by
    rw [hm.ms, hms, hdl, hload]
    exact Motion.emptied_eq hq hc he
  have values : v.motionValues = s.motionValues := by rw [State.motionValues, hv]; rfl
  obtain ⟨hfull, hstale⟩ := hset
  have fresh : s.ms.mirror.stale = false := by
    rw [← Bool.not_eq_true]
    exact fun hs => absurd (hstale hs) (by rw [hup]; decide)
  obtain ⟨-, stands⟩ := Machine.finish_motion (m := s.ms.mirror) (hm.reset.trans hr) h
    (by rw [hv, values]; simp [Mirror.mark])
  exact stands (by rw [Mirror.begins, hfull, fresh]; rfl)

end

/-! ### The settled statement -/

/-- The outcome in LOADING, CENSUS or RUNNING, but for the Request Scanner, the memory and the port. -/
theorem WorkEnded.visible {s v t : State} (h : WorkEnded s v) (hv : t.visible = v.visible) :
    t.ru.ri = s.ru.ri ∧ t.ru.si = s.ru.si ∧ t.ru.tutti = s.ru.tutti ∧ t.cs = s.cs ∧
    t.ce = { s.ce with job := none, locks := [] } ∧ t.sq = { s.sq with job := none } ∧
    t.visible.cu = { s.visible.cu with loading := none } ∧
    t.visible.ms = { s.visible.ms with queue := [], committed := 0, energised := 0 } ∧
    (∀ i : Fin 16, t.lc.boards[i] = { s.lc.boards[i] with outgoing := [], openFrame := none }) ∧
    t.lc.inRound = false ∧ t.lc.exchange = .idle ∧ t.lc.clears = [] ∧
    t.lc.draining = s.lc.draining ++ s.lc.exchange.unsent ∧
    t.dl.phase = .idle ∧ t.dl.valid = s.dl.valid ∧ t.jw = s.jw ∧ t.clock = s.clock ∧ t.line = s.line := by
  have ri : t.ru.ri = v.ru.ri := (congrArg (fun x : State => x.ru.ri) hv :)
  have si : t.ru.si = v.ru.si := (congrArg (fun x : State => x.ru.si) hv :)
  have tutti : t.ru.tutti = v.ru.tutti := (congrArg (fun x : State => x.ru.tutti) hv :)
  have ce : t.ce = v.ce := (congrArg (fun x : State => x.ce) hv :)
  have sq : t.sq = v.sq := (congrArg (fun x : State => x.sq) hv :)
  have dl : t.dl = v.dl := (congrArg (fun x : State => x.dl) hv :)
  have lc : t.visible.lc = v.visible.lc := (congrArg (fun x : State => x.lc) hv :)
  have boards : t.lc.boards = v.lc.boards := (congrArg Link.boards lc :)
  have inRound : t.lc.inRound = v.lc.inRound := (congrArg Link.inRound lc :)
  have exchange : t.lc.exchange = v.lc.exchange := (congrArg Link.exchange lc :)
  have clears : t.lc.clears = v.lc.clears := (congrArg Link.clears lc :)
  have draining : t.lc.draining = v.lc.draining := (congrArg Link.draining lc :)
  have stand := h.same.to_visible (ps := [.mem, .part, .cause, .rs, .dl, .ce, .sq, .cu, .ru, .ms, .lc])
  rw [← hv] at stand
  refine ⟨by rw [ri, h.ru], by rw [si, h.ru], by rw [tutti, h.ru], (stand.get .cs).symm, ce.trans h.ce, sq.trans h.sq, ?_,
    ?_, fun i => ?_, by rw [inRound, h.lc], by rw [exchange, h.lc], by rw [clears, h.lc], by rw [draining, h.lc],
    by rw [dl, h.dl], by rw [dl, h.dl], (stand.get .jw).symm, (stand.get .clock).symm, (stand.get .line).symm⟩
  · rw [hv, State.visible, h.cu]
    rfl
  · rw [hv, State.visible, h.ms]
    rfl
  · rw [boards, h.lc]
    simp [mapVector]

theorem halt_of_working {s : State} (hp : s.part = .loading ∨ s.part = .census ∨ s.part = .running) :
    halt s = haltWork s := by
  unfold halt
  rcases hp with hp | hp | hp <;> rw [hp]

theorem halt_of_halted {s : State} (hp : s.part = .halted) : halt s = haltMotion (haltImages s) := by
  unfold halt
  rw [hp]

theorem halt_of_descError {s : State} (hp : s.part = .descError) :
    halt s = changePart .halted (haltMotion (haltImages s)) := by
  unfold halt
  rw [hp]

/-- Where no work is in flight the queue's end is all that can be seen. -/
theorem haltMotion_haltImages_visible (s : State) : (haltMotion (haltImages s)).visible =
    ({ s with ms := { s.ms with queue := [], committed := 0, energised := 0 } } : State).visible := by
  unfold haltMotion
  dsimp only
  split <;> rfl

/-- Settles O12: the work ends block by block (`workEnded_spec`), the results up to a held reload cell's are written from
there (`abandonReload_drained`), and the end of the command finds both mirror groups as `halt_mirrorsHalted` says. -/
theorem runClearEndsWork : Obligations.RunClearEndsWork := by
  refine ⟨fun s data flags held hr h0 hp hflags => ?_, fun s data hr h0 => ?_⟩
  · have hw : halt (s.withControl data) = haltWork (s.withControl data) := halt_of_working hp
    obtain ⟨t, ht, hv, hport⟩ := finish_spec s (haltWork (s.withControl data))
    have trs : t.rs = (haltWork (s.withControl data)).rs := (congrArg (fun x : State => x.rs) hv :)
    have tcause : t.cause = (haltWork (s.withControl data)).cause := (congrArg (fun x : State => x.cause) hv :)
    have tmem : t.mem = (haltWork (s.withControl data)).mem := (congrArg (fun x : State => x.mem) hv :)
    obtain ⟨ri, si, tutti, cs, ce, sq, cu, ms, boards, inRound, exchange, clears, draining, phase, valid, jw, clock, line⟩ :=
      (haltWork_workEnded (s.withControl data)).visible hv
    obtain ⟨hsweep, hscan, hreload, -⟩ := haltWork_ends (s.withControl data)
    refine ⟨t, by rw [exec_runClear hr h0, hw, ht], congrArg State.part hv, hasCause_of_cause (f := .state) tcause, ri, si,
      tutti, cs, ce, sq, cu, ms, boards, inRound, exchange, clears, draining, by rw [trs, hsweep], by rw [trs, hscan],
      by rw [trs, hreload], phase, valid, jw, clock, line, fun hnone => ?_, fun c hc hheld => ?_⟩
    · have hwork := haltWork_of_no_reload (s := s.withControl data) hnone
      obtain ⟨hsame, hrs, -⟩ := workEnded_spec (s.withControl data)
      obtain ⟨-, qrs, qce, qsq⟩ := workEnded_queues (s.withControl data)
      rw [trs, tmem, hport .rs rfl, hport .ce rfl, hport .sq rfl, hwork, changePart_rs, hrs]
      exact ⟨rfl, hflags.symm ▸ rfl, (hsame.get .mem).symm, qrs, qce, qsq⟩
    · obtain ⟨hlist, hreq, hout⟩ := haltWork_reload_requests (s := s.withControl data) hc hheld
      have hreq' : t.hasCause .req = true := by rw [State.hasCause, tcause]; exact hreq
      rw [trs, tmem, hflags]
      exact ⟨hlist, hreq', hout, fun hwf => ⟨haltWork_reload_cell (s := s.withControl data) hc hwf,
        fun k hk hne hcells => haltWork_reload_stands (s := s.withControl data) hc hheld hwf hk hne hcells⟩⟩
  · obtain ⟨t, ht⟩ := finish_next s (halt (s.withControl data))
    have hr' : (s.withControl data).inReset = false := hr
    have hm := halt_mirrorsHalted (s.withControl data)
    have hv := finish_visible ht
    obtain ⟨abandoned, full⟩ := hm.finish_image hr' ht rfl rfl
    refine ⟨t, by rw [exec_runClear hr h0, ht], abandoned, full, hm.motion_isMarked hr' ht rfl rfl,
      fun hload hq hc he hp hset hup => ?_, fun hp => ?_, fun hp => ?_⟩
    · obtain ⟨hmirror, hport⟩ := hm.motion_stands hr' ht rfl rfl hload hq hc he hset hup
      refine ⟨hmirror, hport.trans ?_⟩
      rw [halt_of_halted (s := s.withControl data) hp, haltMotion_port, haltImages_get_ne (by decide)]
      rfl
    · rw [hv, halt_of_halted (s := s.withControl data) hp, haltMotion_haltImages_visible, State.withControl, h0]
    · rw [hv, halt_of_descError (s := s.withControl data) hp]
      refine Eq.trans (b := changePart .halted (haltMotion (haltImages (s.withControl data))).visible) rfl ?_
      rw [haltMotion_haltImages_visible, State.withControl, h0]
      rfl

end Sys2Proof.Machine

/-! ## The Sequencer's steps (R60, R62 to R67) -/

namespace Sys2Proof.Machine

/-! ### Which ports the shared operations touch -/

theorem completeIf_get_ne {b : Block} (h : b ≠ .rs) (c : Option Nat) (r : RequestResult) (v : Nat) (s : State) :
    (completeIf c r v s).port.get b = s.port.get b := by
  cases c with
  | none => rfl
  | some c => exact complete_get_ne h c r v s

theorem journal_get_ne {b : Block} (h : b ≠ .jw) (e : JournalEntry) (s : State) :
    (journal e s).port.get b = s.port.get b := by
  unfold journal
  split
  · exact startWrite_get_ne h ..
  · unfold takeEntry
    split
    · exact startRead_get_ne h ..
    · rfl

theorem setActionQueue_get_ne {b : Block} (h : b ≠ .ce) (q : List Action) (s : State) :
    (setActionQueue q s).port.get b = s.port.get b := by
  unfold setActionQueue
  dsimp only
  split
  · rfl
  · exact startWrite_get_ne h ..

theorem setUndo_get_ne {b : Block} (h : b ≠ .ce) (u : List StopImage) (s : State) :
    (setUndo u s).port.get b = s.port.get b := by
  unfold setUndo
  dsimp only
  split
  · rfl
  · exact startWrite_get_ne h ..

theorem setStepList_get_ne {b : Block} (h : b ≠ .sq) (l : List StepRequest) (s : State) :
    (setStepList l s).port.get b = s.port.get b := by
  unfold setStepList
  dsimp only
  split
  · rfl
  · exact startWrite_get_ne h ..

theorem applyChangeSet_port (c : ChangeSet) (s : State) : (applyChangeSet c s).port = s.port :=
  (Same.get (ps := [.ru, .ms, .lc]) (by simp) .port : s.port = (applyChangeSet c s).port).symm

/-- The queue depth goes to its mirror as it changes (R44). -/
theorem setActionQueue_get_ce {q : List Action} {s : State} (h : q.length ≠ s.ce.queue.length) :
    (setActionQueue q s).port.get .ce =
      ⟨(s.port.get .ce).queue ++ mirrorBytes [(0x0101A3, q.length)], (s.port.get .ce).buf⟩ := by
  unfold setActionQueue
  dsimp only
  rw [if_neg h]
  exact startWrite_get_self ..

/-- The number of waiting step requests goes to its mirror as it changes (R62). -/
theorem setStepList_get_sq {l : List StepRequest} {s : State} (h : l.length ≠ s.sq.list.length) :
    (setStepList l s).port.get .sq =
      ⟨(s.port.get .sq).queue ++ mirrorBytes [(0x0101B2, l.length)], (s.port.get .sq).buf⟩ := by
  unfold setStepList
  dsimp only
  rw [if_neg h]
  exact startWrite_get_self ..

/-- The position goes to its mirror, whatever it was (R65, R66, R67). -/
theorem setPosition_get_sq (p : Option Nat) (s : State) : (setPosition p s).port.get .sq =
    ⟨(s.port.get .sq).queue ++ writeAccesses .mirror 0x0101B0 (bytesLE 2 (positionCode p)), (s.port.get .sq).buf⟩ :=
  startWrite_get_self ..

theorem setPosition_get_ne {b : Block} (h : b ≠ .sq) (p : Option Nat) (s : State) :
    (setPosition p s).port.get b = s.port.get b := startWrite_get_ne h ..

theorem changeLevel_get_ce (v : Nat) (origin : Origin) (s : State) : (changeLevel v origin s).port.get .ce =
    ⟨(s.port.get .ce).queue ++ mirrorBytes [(0x0101A0, v)], (s.port.get .ce).buf⟩ := by
  unfold changeLevel
  rw [journal_get_ne (by decide)]
  exact startWrite_get_self ..

theorem changeLevel_get_ne {b : Block} (hce : b ≠ .ce) (hjw : b ≠ .jw) (v : Nat) (origin : Origin) (s : State) :
    (changeLevel v origin s).port.get b = s.port.get b := by
  unfold changeLevel
  rw [journal_get_ne hjw]
  exact startWrite_get_ne hce ..

/-! ### Taking an action touches the ports of the engine, the Journal Writer and the Request Scanner alone (R45) -/

section
variable {b : Block} (hce : b ≠ .ce) (hjw : b ≠ .jw) (hrs : b ≠ .rs) (a : Action) (s : State)
include hce

theorem recallAction_get_ne (level piston : Nat) : (recallAction a level piston s).port.get b = s.port.get b := by
  rw [recallAction, startRead_get_ne hce, setJob_get_ne hce]

include hjw hrs

theorem captureAction_get_ne (level piston : Nat) : (captureAction a level piston s).port.get b = s.port.get b := by
  unfold captureAction
  split
  · rw [completeIf_get_ne hrs, journal_get_ne hjw]
  · rw [startRead_get_ne hce, setJob_get_ne hce]

theorem cancelAction_get_ne : (cancelAction a s).port.get b = s.port.get b := by
  rw [cancelAction, completeIf_get_ne hrs, journal_get_ne hjw, applyChangeSet_port, pushUndo, setUndo_get_ne hce]

theorem tuttiAction_get_ne (state : TuttiState) : (tuttiAction a state s).port.get b = s.port.get b := by
  unfold tuttiAction
  split
  · rw [completeIf_get_ne hrs, journal_get_ne hjw, setTutti_port]
  · rw [startRead_get_ne hce, setJob_get_ne hce]

theorem tuttiCaptureAction_get_ne : (tuttiCaptureAction a s).port.get b = s.port.get b := by
  unfold tuttiCaptureAction
  split
  · rw [completeIf_get_ne hrs, journal_get_ne hjw]
  · split
    · rw [completeIf_get_ne hrs, journal_get_ne hjw]
    · rw [enqueueAccesses_get_ne hce, setJob_get_ne hce]

omit hce in
theorem setStop_get_ne (stop : Nat) (bit : Bool) : (setStop a stop bit s).port.get b = s.port.get b := by
  unfold setStop
  split
  · rw [completeIf_get_ne hrs, journal_get_ne hjw]
  · rw [completeIf_get_ne hrs, journal_get_ne hjw, applyChangeSet_port]

theorem undoAction_get_ne : (undoAction a s).port.get b = s.port.get b := by
  unfold undoAction
  split
  · rw [completeIf_get_ne hrs, journal_get_ne hjw]
  · rw [completeIf_get_ne hrs, journal_get_ne hjw, applyChangeSet_port, setUndo_get_ne hce]

theorem performAction_get_ne : (performAction a s).port.get b = s.port.get b := by
  unfold performAction
  split
  · exact recallAction_get_ne hce ..
  · exact captureAction_get_ne hce hjw hrs ..
  · exact cancelAction_get_ne hce hjw hrs ..
  · exact tuttiAction_get_ne hce hjw hrs ..
  · exact tuttiCaptureAction_get_ne hce hjw hrs ..
  · exact setStop_get_ne hjw hrs ..
  · exact setStop_get_ne hjw hrs ..
  · exact undoAction_get_ne hce hjw hrs ..

theorem takeUpTo_get_ne (n : Nat) : (takeUpTo n s).port.get b = s.port.get b := by
  induction n generalizing s with
  | zero => rfl
  | succ n ih =>
    unfold takeUpTo
    split
    · rw [ih]
      exact (performAction_get_ne hce hjw hrs ..).trans (setActionQueue_get_ne hce ..)
    · rfl

theorem takeActions_get_ne : (takeActions s).port.get b = s.port.get b := takeUpTo_get_ne hce hjw hrs s _

end

/-! ### Taking a step request touches the ports of the Sequencer and the Request Scanner alone (R62) -/

section
variable {b : Block} (hsq : b ≠ .sq) (hrs : b ≠ .rs)
include hsq hrs

theorem performStep_get_ne (r : StepRequest) (s : State) : (performStep r s).port.get b = s.port.get b := by
  unfold performStep
  split
  · rw [clearPosition, completeIf_get_ne hrs, setPosition_get_ne hsq, setStepList_get_ne hsq]
  · rw [fetchLength, startRead_get_ne hsq]
    exact setStepList_get_ne hsq ..

theorem takeStepsUpTo_get_ne (n : Nat) (s : State) : (takeStepsUpTo n s).port.get b = s.port.get b := by
  induction n generalizing s with
  | zero => rfl
  | succ n ih =>
    unfold takeStepsUpTo
    split
    · rw [ih, performStep_get_ne hsq hrs]
    · rfl

theorem takeSteps_get_ne (s : State) : (takeSteps s).port.get b = s.port.get b := takeStepsUpTo_get_ne hsq hrs _ s

end

/-! ### The head of the step-request list is taken (R62) -/

/-- The Sequencer may take the head of its list in IDLE and in RUNNING only (R62). -/
theorem nextStep_eq_some {s : State} {r : StepRequest} (h : s.nextStep = some r) :
    s.part = .running ∧ s.sq.job = none ∧ s.sq.list = r :: s.sq.list.tail := by
  unfold State.nextStep at h
  split at h
  · rename_i hidle
    exact ⟨hidle.1, hidle.2, List.eq_cons_of_mem_head? h⟩
  · cases h

theorem nextStep_of_job {s : State} {j : SequencerJob} (h : s.sq.job = some j) : s.nextStep = none :=
  if_neg (by simp [h])

/-- NEXT, PREV and SEQ_SET have the Sequencer take its list where the head is of their kind (R62). -/
theorem exec_of_nextStep {s : State} {r : StepRequest} {c : Instr} (h : s.nextStep = some r)
    (hc : (c = .next ∧ r.kind = .next) ∨ (c = .prev ∧ r.kind = .prev) ∨ (c = .seqSet ∧ ∃ p, r.kind = .set p)) :
    exec c s = finish s (takeSteps s) := by
  obtain ⟨kind, origin, cell⟩ := r
  obtain ⟨rfl, hk⟩ | ⟨rfl, hk⟩ | ⟨rfl, p, hk⟩ := hc <;> cases hk
  · show execNext s = _
    rw [execNext, h]
  · show (match s.nextStep with
      | some ⟨.prev, _, _⟩ => finish s (takeSteps s)
      | _ => finish s s) = _
    rw [h]
  · show execSeqSet s = _
    rw [execSeqSet, h]

/-- The list is shorter once its head is taken, and its mirror is written (R62). -/
theorem setStepList_tail_get_sq {s : State} (h : s.sq.list ≠ []) : (setStepList s.sq.list.tail s).port.get .sq =
    ⟨(s.port.get .sq).queue ++ mirrorBytes [(0x0101B2, s.sq.list.tail.length)], (s.port.get .sq).buf⟩ := by
  have nonempty := List.length_pos_iff.2 h
  exact setStepList_get_sq (by rw [List.length_tail]; omega)

/-- A SEQ_SET to NONE writes both mirrors (R62, R67). -/
theorem clearPosition_get_sq {s : State} (h : s.sq.list ≠ []) (c : Option Nat) :
    ((clearPosition c s).port.get .sq).queue = (s.port.get .sq).queue ++
      mirrorBytes [(0x0101B2, s.sq.list.tail.length), (0x0101B0, 0xFF), (0x0101B1, 0xFF)] := by
  rw [clearPosition, completeIf_get_ne (by decide), setPosition_get_sq, setStepList_tail_get_sq h,
    List.append_assoc]
  rfl

/-- The read of the length word waits behind the write of the list's mirror (R62, R63). -/
theorem fetchLength_get_sq {s : State} (h : s.sq.list ≠ []) (r : StepRequest) :
    (fetchLength r s).port.get .sq = ⟨(s.port.get .sq).queue ++ mirrorBytes [(0x0101B2, s.sq.list.tail.length)] ++
      readAccesses 0x013000 4, []⟩ := by
  rw [fetchLength, startRead_get_self]
  show (⟨((setStepList _ s).port.get .sq).queue ++ _, []⟩ : BlockPort) = _
  rw [setStepList_tail_get_sq h]
  rfl

/-- While the length word is read, no further request is taken (R62). -/
theorem takeSteps_fetchLength (r : StepRequest) (s : State) : takeSteps (fetchLength r s) = fetchLength r s :=
  takeSteps_none _ (nextStep_of_job (j := .lengthRead r) rfl)

/-- A step number or a NEXT or PREV is taken: its request waits with the read of the length word (R62, R63). -/
theorem takeSteps_of_not_none {s : State} {r : StepRequest} (h : s.nextStep = some r) (hk : r.kind ≠ .set 0xFFFF) :
    takeSteps s = fetchLength r s := by
  rw [takeSteps_some s r h, performStep, if_neg hk, takeSteps_fetchLength]

/-- A SEQ_SET to NONE ends at its event, and the Sequencer goes on with its list (R62, R67). -/
theorem takeSteps_of_none {s : State} {r : StepRequest} (h : s.nextStep = some r) (hk : r.kind = .set 0xFFFF) :
    takeSteps s = takeSteps (clearPosition r.cell s) := by
  rw [takeSteps_some s r h, performStep, if_pos hk]

/-! ### A read of the Sequencer completes, and a request ends (R62, R158) -/

theorem serveBlock_eq (b : Block) (s : State) : ∃ m p, serveBlock b s = { s with mem := m, port := p } := by
  unfold serveBlock
  split <;> exact ⟨_, _, rfl⟩

/-- The port serves accesses by changing memory and itself alone (R158). -/
theorem serveUntil_eq (b : Block) (done : BlockPort → Bool) (n : Nat) (s : State) :
    ∃ m p, serveUntil b done n s = { s with mem := m, port := p } := by
  induction n generalizing s with
  | zero => exact ⟨_, _, rfl⟩
  | succ n ih =>
    unfold serveUntil serveNext
    split
    · exact ⟨_, _, rfl⟩
    · cases s.port.granted with
      | none => exact ⟨_, _, rfl⟩
      | some g =>
        obtain ⟨m, p, served⟩ := serveBlock_eq g s
        obtain ⟨m', p', rest⟩ := ih (serveBlock g s)
        exact ⟨m', p', rest.trans (by rw [served])⟩

theorem finishRead_eq (b : Block) (s : State) : ∃ m p, finishRead b s = { s with mem := m, port := p } :=
  serveUntil_eq ..

/-- The Sequencer has returned to IDLE, and has not yet taken the next request (R62). -/
def State.sequencerIdle (s : State) : State := { s with sq := { s.sq with job := none } }

theorem exec_lengthWordReadCompletion {s : State} {r : StepRequest} (h : s.sq.job = some (.lengthRead r)) :
    exec .lengthWordReadCompletion s = finish s (takeLength r (finishRead .sq s)) := by
  show execLengthWordReadCompletion s = _
  rw [execLengthWordReadCompletion, h]

theorem exec_stepReadCompletion {s : State} {r : StepRequest} {target : Nat}
    (h : s.sq.job = some (.stepRead r target)) :
    exec .stepReadCompletion s = finish s (takeStep r target (finishRead .sq s)) := by
  show execStepReadCompletion s = _
  rw [execStepReadCompletion, h]

/-! ### What the length word leads to (R60, R63, R64, R67) -/

theorem nextTarget_some {e : Nat} (he : e ≠ 0) (p : Nat) :
    nextTarget e (some p) = some (if e ≤ p then e - 1 else if p < e - 1 then p + 1 else e - 1) := by
  unfold nextTarget
  rw [if_neg he]
  dsimp only
  split_ifs <;> rfl

theorem prevTarget_some {e : Nat} (he : e ≠ 0) (p : Nat) :
    prevTarget e (some p) = some (if p = 0 then 0 else if p ≤ e then p - 1 else e - 1) := by
  unfold prevTarget
  rw [if_neg he]
  dsimp only
  split_ifs <;> rfl

section
variable {s : State} {r : StepRequest} {e : Nat} (he : e = min (natLE (s.readBytes .sq)) 1024)
include he

theorem takeLength_next (hk : r.kind = .next) :
    takeLength r s = fetchTarget r (nextTarget e s.sq.position) s := by
  rw [takeLength, hk, he]
  rfl

theorem takeLength_prev (hk : r.kind = .prev) :
    takeLength r s = fetchTarget r (prevTarget e s.sq.position) s := by
  rw [takeLength, hk, he]
  rfl

theorem takeLength_set {p : Nat} (hk : r.kind = .set p) : takeLength r s = settlePosition r p e s := by
  rw [takeLength, hk, he]
  rfl

/-- A NEXT or PREV of an empty list is refused (R63, R64). -/
theorem takeLength_of_empty (hk : r.kind = .next ∨ r.kind = .prev) (h0 : e = 0) :
    takeLength r s = takeSteps (completeIf r.cell .empty 0 (journal (s.refusedStep r.origin) s)).sequencerIdle := by
  subst h0
  obtain hk | hk := hk
  · rw [takeLength_next he hk]
    rfl
  · rw [takeLength_prev he hk]
    rfl

/-- A NEXT or PREV of a list that is not empty finds its target from the position (R63, R64). -/
theorem takeLength_of_target {target : Nat} (h0 : e ≠ 0)
    (h : (s.sq.position = none ∧ (r.kind = .next ∨ r.kind = .prev) ∧ target = 0) ∨
      (∃ p, s.sq.position = some p ∧
        ((r.kind = .next ∧ target = if e ≤ p then e - 1 else if p < e - 1 then p + 1 else e - 1) ∨
          (r.kind = .prev ∧ target = if p = 0 then 0 else if p ≤ e then p - 1 else e - 1)))) :
    takeLength r s = fetchTarget r (some target) s := by
  obtain ⟨hp, hk | hk, rfl⟩ | ⟨p, hp, ⟨hk, rfl⟩ | ⟨hk, rfl⟩⟩ := h
  · rw [takeLength_next he hk, hp, nextTarget, if_neg h0]
  · rw [takeLength_prev he hk, hp, prevTarget, if_neg h0]
  · rw [takeLength_next he hk, hp, nextTarget_some h0]
  · rw [takeLength_prev he hk, hp, prevTarget_some h0]

end

/-- What a SEQ_SET leaves as it ends, before the Sequencer takes the next request (R67). -/
def positionSettled (r : StepRequest) (p e : Nat) (s : State) : State :=
  if p < e then completeIf r.cell .ok p (setPosition (some p) s) else completeIf r.cell .range (s.unstated r.cell) s

theorem settlePosition_eq (r : StepRequest) (p e : Nat) (s : State) :
    settlePosition r p e s = takeSteps (positionSettled r p e s).sequencerIdle := by
  unfold settlePosition positionSettled
  split <;> rfl

theorem positionSettled_visible (r : StepRequest) (p e : Nat) (s : State) :
    (positionSettled r p e s).sequencerIdle.visible = ({ s with
      sq := { s.sq with job := none, position := if p < e then some p else s.sq.position }
      rs := { s.rs with
        completions := s.resultsWith r.cell (if p < e then .ok else .range)
          (if p < e then p else s.unstated r.cell) } } : State).visible := by
  unfold positionSettled State.sequencerIdle
  by_cases h : p < e
  · simp only [if_pos h]
    rw [left_visible, setPosition_visible]
    rfl
  · simp only [if_neg h]
    rw [left_visible]
    rfl

theorem positionSettled_get_sq {p e : Nat} (h : p < e) (r : StepRequest) (s : State) :
    ((positionSettled r p e s).port.get .sq).queue =
      (s.port.get .sq).queue ++ writeAccesses .mirror 0x0101B0 (bytesLE 2 p) := by
  rw [positionSettled, if_pos h, completeIf_get_ne (by decide), setPosition_get_sq]
  rfl

theorem positionCode_eq (p : Option Nat) : positionCode p = p.getD 0xFFFF := by cases p <;> rfl

/-- What a NEXT or PREV of an empty list leaves as it ends (R63, R64). -/
theorem refusedStep_visible (r : StepRequest) (s : State) :
    (completeIf r.cell .empty 0 (journal (s.refusedStep r.origin) s)).sequencerIdle.visible = ({ s with
      sq := { s.sq with job := none }
      jw := s.jw.handed ⟨.sequence, r.origin, s.ce.level, 0xFF, s.sq.position.getD 0xFFFF, 0xFFFF, 0⟩ s.clock
      rs := { s.rs with completions := s.resultsWith r.cell .empty 0 } } : State).visible := by
  unfold State.sequencerIdle
  rw [left_visible, journal_visible, State.refusedStep, positionCode_eq]
  rfl

/-- Settles O44: a request taken waits with the read of the length word or ends at its event, and the completed read
leads to the position, the refusal or the target of its kind. -/
theorem stepsTakenAndTargets : Obligations.StepsTakenAndTargets := by
  refine ⟨fun s r c hr hc => ?_, fun s u r e hj hu he => ?_⟩
  · obtain ⟨t, ht, visible, port⟩ := finish_spec s (takeSteps s)
    obtain ⟨-, job, list⟩ := nextStep_eq_some hr
    have some_waits : s.sq.list ≠ [] := by rw [list]; exact List.cons_ne_nil _ _
    refine ⟨t, (exec_of_nextStep hr hc).trans ht, fun hk => ⟨clearPosition r.cell s, ?_, ?_, ?_, ?_⟩, fun hk => ⟨?_, ?_⟩⟩
    · rw [visible, takeSteps_of_none hr hk]
    · rw [port .sq rfl, takeSteps_of_none hr hk]
    · rw [clearPosition_visible, ← job]
      rfl
    · rw [waitsNow, clearPosition_get_sq some_waits, List.append_nil]
    · rw [visible, takeSteps_of_not_none hr hk, fetchLength_visible]
      rfl
    · rw [readsNow, port .sq rfl, takeSteps_of_not_none hr hk, fetchLength_get_sq some_waits]
  · obtain ⟨t, ht, visible, port⟩ := finish_spec s (takeLength r u)
    obtain ⟨m, p, read⟩ := finishRead_eq .sq s
    refine ⟨t, by rw [exec_lengthWordReadCompletion hj, ← hu, ht], fun n hk => ?_, fun hk h0 => ?_, fun target h0 hk => ?_⟩
    · rw [takeLength_set he hk, settlePosition_eq] at visible port
      refine ⟨_, visible, port .sq rfl, ?_, fun hn => positionSettled_get_sq hn r u⟩
      rw [positionSettled_visible, hu, read]
      rfl
    · rw [takeLength_of_empty he hk h0] at visible
      refine ⟨_, visible, ?_⟩
      rw [refusedStep_visible, journal_jw, hu, read]
      rfl
    · have found : takeLength r u = fetchTarget r (some target) u :=
        takeLength_of_target he h0 (by rw [hu, read]; exact hk)
      rw [found] at visible port
      refine ⟨?_, ?_⟩
      · rw [visible, hu, read]
        rfl
      · rw [readsNow, port .sq rfl, mirrorBytes, List.map_nil, List.append_nil]
        exact startRead_get_self ..

/-! ### What the step word leads to (R65, R66) -/

theorem setActionQueue_waits {s : State} (a : Action) :
    waitsNow s (setActionQueue (s.ce.queue ++ [a]) s) .ce [(0x0101A3, s.ce.queue.length + 1)] [] := by
  rw [waitsNow, setActionQueue_get_ce (by simp), List.append_nil]
  simp

section
variable {s : State} {r : StepRequest} {target level piston note : Nat} (hl : level = byteAt (s.readBytes .sq) 0)
  (hp : piston = byteAt (s.readBytes .sq) 1) (hn : note = natLE (((s.readBytes .sq).drop 2).take 2))
include hl hp

/-- The recall of a good step is dropped where 8 records wait (R65, R44). -/
theorem takeStep_of_full (level_lt : level < s.desc.header.levels) (piston_lt : piston < 128)
    (full : 8 ≤ s.ce.queue.length) :
    takeStep r target s = takeSteps (overrun ⟨.recall level piston, .sequencer, r.cell⟩ s).sequencerIdle := by
  subst hl hp
  have good : ¬ (byteAt (s.readBytes .sq) 0 ≥ s.desc.header.levels ∨ byteAt (s.readBytes .sq) 1 ≥ 128) := by omega
  unfold takeStep
  dsimp only
  rw [if_neg good, if_pos (show s.ce.queue.length ≥ Config.actionQueueSize from full), joinActions,
    if_pos (show s.ce.queue.length ≥ Config.actionQueueSize from full)]
  rfl

include hn

/-- A bad step (R66). -/
theorem takeStep_of_bad (bad : s.desc.header.levels ≤ level ∨ 128 ≤ piston) :
    takeStep r target s = badStep r target level piston note s := by
  subst hl hp hn
  exact if_pos bad

/-- The recall of a good step joins the action queue where there is room (R65). -/
theorem takeStep_of_room (level_lt : level < s.desc.header.levels) (piston_lt : piston < 128)
    (room : s.ce.queue.length < 8) :
    takeStep r target s = goodStep r target level piston note
      (setActionQueue (s.ce.queue ++ [⟨.recall level piston, .sequencer, r.cell⟩]) s) := by
  subst hl hp hn
  have good : ¬ (byteAt (s.readBytes .sq) 0 ≥ s.desc.header.levels ∨ byteAt (s.readBytes .sq) 1 ≥ 128) := by omega
  have fits : ¬ s.ce.queue.length ≥ Config.actionQueueSize := Nat.not_le.2 room
  unfold takeStep
  dsimp only
  rw [if_neg good, if_neg fits, joinActions, if_neg fits]

end

/-- What a bad step leaves as its request ends, before the Sequencer takes the next (R66). -/
def badStepEnded (r : StepRequest) (target level piston note : Nat) (s : State) : State :=
  completeIf r.cell .range target
    (journal (slotEntry .recallRefused .sequencer level piston 4 0)
      (journal (stepEntry r target level piston note) (setPosition (some target) s)))

theorem badStep_eq (r : StepRequest) (target level piston note : Nat) (s : State) :
    badStep r target level piston note s = takeSteps (badStepEnded r target level piston note s).sequencerIdle := rfl

theorem badStepEnded_visible (r : StepRequest) (target level piston note : Nat) (s : State) :
    (badStepEnded r target level piston note s).sequencerIdle.visible = ({ s with
      sq := { s.sq with job := none, position := some target }
      jw := (s.jw.handed (stepEntry r target level piston note) s.clock).handed
        ⟨.recallRefused, .sequencer, level, piston, 4, 0, 0⟩ s.clock
      rs := { s.rs with completions := s.resultsWith r.cell .range target } } : State).visible := by
  unfold badStepEnded State.sequencerIdle
  rw [left_visible, journal_visible, journal_visible, setPosition_visible]
  rfl

theorem badStepEnded_get_sq (r : StepRequest) (target level piston note : Nat) (s : State) :
    ((badStepEnded r target level piston note s).port.get .sq).queue =
      (s.port.get .sq).queue ++ writeAccesses .mirror 0x0101B0 (bytesLE 2 target) := by
  rw [badStepEnded, completeIf_get_ne (by decide), journal_get_ne (by decide), journal_get_ne (by decide),
    setPosition_get_sq]
  rfl

/-- What the recall of a step leaves as it is dropped (R44, R65). -/
theorem overrun_idle_visible (r : StepRequest) (level piston : Nat) (s : State) :
    (overrun ⟨.recall level piston, .sequencer, r.cell⟩ s).sequencerIdle.visible = ({ s with
      sq := { s.sq with job := none }
      jw := s.jw.handed ⟨.actionOverrun, .sequencer, level, piston, 1, 0, 0⟩ s.clock
      rs := { s.rs with completions := s.resultsWith r.cell .full 0 } } : State).visible := by
  have idle : ∀ v : State, v.sequencerIdle.visible = v.visible.sequencerIdle := fun _ => rfl
  rw [idle, overrun_visible]
  rfl

/-- The step's recall has joined the queue, and the position and the level have moved; the engine has not yet taken it
(R42, R65). -/
def stepMoved (r : StepRequest) (target level piston note : Nat) (s : State) : State :=
  let s₁ := journal (stepEntry r target level piston note) (setPosition (some target)
    (setActionQueue (s.ce.queue ++ [⟨.recall level piston, .sequencer, r.cell⟩]) s))
  if level = s.ce.level then s₁ else changeLevel level r.origin s₁

theorem setActionQueue_level (q : List Action) (s : State) : (setActionQueue q s).ce.level = s.ce.level :=
  (congrArg (fun v : State => v.ce.level) (setActionQueue_visible q s) : _)

theorem goodStep_eq (r : StepRequest) (target level piston note : Nat) (s : State) :
    goodStep r target level piston note
      (setActionQueue (s.ce.queue ++ [⟨.recall level piston, .sequencer, r.cell⟩]) s) =
      takeSteps (takeActions (stepMoved r target level piston note s)).sequencerIdle := by
  unfold goodStep stepMoved
  dsimp only
  rw [setActionQueue_level]
  rfl

theorem stepMoved_visible (r : StepRequest) (target level piston note : Nat) (s : State) :
    (stepMoved r target level piston note s).visible = ({ s with
      sq := { s.sq with position := some target }
      ce := { s.ce with
        queue := s.ce.queue ++ [⟨.recall level piston, .sequencer, r.cell⟩]
        level := level }
      jw := if level = s.ce.level then s.jw.handed (stepEntry r target level piston note) s.clock
        else (s.jw.handed (stepEntry r target level piston note) s.clock).handed
          ⟨.level, r.origin, level, 0xFF, s.ce.level, 0, 0⟩ s.clock } : State).visible := by
  unfold stepMoved
  by_cases h : level = s.ce.level
  · simp only [if_pos h]
    rw [journal_visible, setPosition_visible, setActionQueue_visible, h]
    rfl
  · simp only [if_neg h]
    rw [changeLevel_visible, journal_visible, setPosition_visible, setActionQueue_visible]
    rfl

/-- The queue depth and, where it changes, the level go to their mirrors (R42, R44). -/
theorem stepMoved_waits (r : StepRequest) (target level piston note : Nat) (s : State) :
    waitsNow s (stepMoved r target level piston note s) .ce ((0x0101A3, s.ce.queue.length + 1) ::
      if level = s.ce.level then [] else [(0x0101A0, level)]) [] := by
  have joined := setActionQueue_waits (s := s) ⟨.recall level piston, .sequencer, r.cell⟩
  rw [waitsNow, List.append_nil] at joined ⊢
  unfold stepMoved
  by_cases h : level = s.ce.level
  · simp only [if_pos h]
    rw [journal_get_ne (by decide), setPosition_get_ne (by decide), joined]
  · simp only [if_neg h]
    rw [changeLevel_get_ce, journal_get_ne (by decide), setPosition_get_ne (by decide), joined, List.append_assoc]
    rfl

theorem stepMoved_get_sq (r : StepRequest) (target level piston note : Nat) (s : State) :
    ((stepMoved r target level piston note s).port.get .sq).queue =
      (s.port.get .sq).queue ++ writeAccesses .mirror 0x0101B0 (bytesLE 2 target) := by
  have moved : ∀ e : JournalEntry, ((journal e (setPosition (some target) (setActionQueue
      (s.ce.queue ++ [⟨.recall level piston, .sequencer, r.cell⟩]) s))).port.get .sq).queue =
      (s.port.get .sq).queue ++ writeAccesses .mirror 0x0101B0 (bytesLE 2 target) := fun e => by
    rw [journal_get_ne (by decide), setPosition_get_sq, setActionQueue_get_ne (by decide)]
    rfl
  unfold stepMoved
  dsimp only
  split
  · exact moved _
  · rw [changeLevel_get_ne (by decide) (by decide)]
    exact moved _

/-- Settles O45: by the three cases of the step word, a bad step, a good one whose recall finds the action queue full,
and a good one whose recall joins it. -/
theorem stepReadTaken : Obligations.StepReadTaken := by
  intro s u r target level piston note taken hj hu hl hp hn htaken
  subst htaken
  obtain ⟨t, ht, visible, port⟩ := finish_spec s (takeStep r target u)
  obtain ⟨m, p, read⟩ := finishRead_eq .sq s
  rw [read] at hu
  have run : exec .stepReadCompletion s = .next t := by rw [exec_stepReadCompletion hj, read, ← hu, ht]
  have desc : u.desc = s.desc := by rw [hu]
  have queue : u.ce.queue = s.ce.queue := by rw [hu]
  by_cases bad : s.desc.header.levels ≤ level ∨ 128 ≤ piston
  · rw [takeStep_of_bad hl hp hn (desc ▸ bad), badStep_eq] at visible port
    refine ⟨t, _, run, visible, port .sq rfl, fun _ => ?_, fun _ => badStepEnded_get_sq .., by omega, by omega⟩
    rw [badStepEnded_visible, journal_jw, journal_jw, hu]
    rfl
  · obtain ⟨level_lt, piston_lt⟩ := not_or.1 bad
    rw [Nat.not_le] at level_lt piston_lt
    by_cases full : 8 ≤ s.ce.queue.length
    · rw [takeStep_of_full hl hp (desc ▸ level_lt) piston_lt (queue ▸ full)] at visible port
      refine ⟨t, _, run, visible, port .sq rfl, by omega, by omega, fun _ _ _ => ?_, by omega⟩
      rw [overrun_idle_visible, journal_jw, hu]
      rfl
    · rw [takeStep_of_room hl hp hn (desc ▸ level_lt) piston_lt (queue ▸ Nat.not_le.1 full), goodStep_eq] at visible port
      refine ⟨t, _, run, visible, port .sq rfl, by omega, fun _ => ?_, by omega, fun _ _ _ =>
        ⟨stepMoved r target level piston note u, rfl, ?_, ?_, ?_⟩⟩
      · exact (congrArg BlockPort.queue (takeActions_get_ne (by decide) (by decide) (by decide) _)).trans
          (stepMoved_get_sq ..)
      · rw [port .ce rfl, takeSteps_get_ne (by decide) (by decide)]
        rfl
      · have waits := stepMoved_waits r target level piston note u
        rw [queue, show u.ce.level = s.ce.level by rw [hu]] at waits
        exact waits
      · rw [stepMoved_visible, journal_jw, journal_jw, hu]
        rfl

end Sys2Proof.Machine

/-! ## The crescendo's filter and the zones of its stages (R71, R73 to R75) -/

namespace Sys2Proof.Machine

/-! ### Division truncated toward zero -/

theorem tdiv_between {d m : Int} (hm : 0 ≤ m) : min d 0 ≤ d.tdiv m ∧ d.tdiv m ≤ max d 0 := by
  rcases le_total 0 d with hd | hd
  · have low := Int.tdiv_nonneg hd hm
    have high := Int.tdiv_le_self m hd
    omega
  · have low := Int.tdiv_nonneg (Int.neg_nonneg_of_nonpos hd) hm
    have high := Int.tdiv_le_self m (Int.neg_nonneg_of_nonpos hd)
    rw [Int.neg_tdiv] at low high
    omega

theorem tdiv_eq_zero_iff {d m : Int} (hm : 0 < m) : d.tdiv m = 0 ↔ d.natAbs < m.natAbs := by
  rw [← Int.natAbs_eq_zero, Int.natAbs_tdiv]
  exact Nat.div_eq_zero_iff_lt (Int.natAbs_pos.2 hm.ne')

/-! ### The filter (R71) -/

/-- A quotient truncated toward zero never takes F below 0: the filter's sum is the rule's. -/
theorem filterStep_eq (k f raw : Nat) :
    (filterStep k f raw : Int) = f + ((raw : Int) * 16 - f).tdiv (2 ^ k) := by
  have between := tdiv_between (d := (raw : Int) * 16 - f) (m := 2 ^ k) (by positivity)
  exact Int.toNat_of_nonneg (by omega)

/-- F moves toward the sample and never beyond it. -/
theorem filterStep_between (k f raw : Nat) :
    min f (raw * 16) ≤ filterStep k f raw ∧ filterStep k f raw ≤ max f (raw * 16) := by
  have between := tdiv_between (d := (raw : Int) * 16 - f) (m := 2 ^ k) (by positivity)
  have sum := filterStep_eq k f raw
  omega

theorem filterStep_zero (f raw : Nat) : filterStep 0 f raw = raw * 16 := by
  have sum := filterStep_eq 0 f raw
  rw [pow_zero, Int.tdiv_one] at sum
  omega

/-- F stays exactly where the difference is below 2^k in size. -/
theorem filterStep_eq_self_iff (k f raw : Nat) :
    filterStep k f raw = f ↔ ((raw : Int) * 16 - f).natAbs < 2 ^ k := by
  have sum := filterStep_eq k f raw
  have zero := tdiv_eq_zero_iff (d := (raw : Int) * 16 - f) (m := 2 ^ k) (by positivity)
  rw [Int.natAbs_pow] at zero
  rw [show (2 : Nat) ^ k = (2 : Int).natAbs ^ k from rfl, ← zero]
  omega

/-- Settles O46: the filter's clauses are those of `filterStep`, and 2^k is at most 16. -/
theorem filterStepHolds : Obligations.FilterStep := by
  intro k f raw hk hraw
  refine ⟨rfl, rfl, fun hf => ⟨filterStep_eq k f raw, ?_, filterStep_eq_self_iff k f raw, ?_, ?_⟩, by decide⟩
  · rintro rfl
    exact filterStep_zero f raw
  · have pow : 2 ^ k ≤ 2 ^ 4 := Nat.pow_le_pow_right (by decide) hk
    omega
  · obtain ⟨low, high⟩ := filterStep_between k f raw
    exact ⟨low, high, by show filterStep k f raw ≤ 65520; omega⟩

/-! ### Boundaries and zones (R73) -/

section
variable {stages : Nat}

theorem boundary_zero : boundary stages 0 = 0 := by simp [boundary]

theorem boundary_one : boundary stages 1 = zoneWidth stages := by simp [boundary, zoneWidth]

/-- The boundary above the top zone would be the end of the travel, so the top zone is a zone like any other. -/
theorem boundary_succ_stages : boundary stages (stages + 1) = 1024 := by simp [boundary]

theorem boundary_mono {j k : Nat} (h : j ≤ k) : boundary stages j ≤ boundary stages k :=
  Nat.div_le_div_right (Nat.mul_le_mul_right _ h)

theorem zone_wide (j : Nat) : boundary stages (j + 1) = boundary stages j + zoneWidth stages ∨
    boundary stages (j + 1) = boundary stages j + zoneWidth stages + 1 := by
  have sum : boundary stages (j + 1) = _ := Nat.add_one_mul j 1024 ▸ Nat.add_div stages.succ_pos
  rw [sum, boundary, zoneWidth]
  split
  · exact .inr rfl
  · exact .inl rfl

/-- No zone is wider than the top zone: b(j + 1) + b(S) is at most b(j) + 1024. -/
theorem zone_le_top (j : Nat) : boundary stages (j + 1) + boundary stages stages ≤ boundary stages j + 1024 := by
  calc boundary stages (j + 1) + boundary stages stages
      ≤ ((j + 1) * 1024 + stages * 1024) / (stages + 1) := Nat.div_add_div_le_add_div ..
    _ = (j * 1024 + 1024 * (stages + 1)) / (stages + 1) := by ring_nf
    _ = boundary stages j + 1024 := Nat.add_mul_div_right _ _ stages.succ_pos

/-! ### The stage read from a value (R73) -/

theorem foldl_max_filter_range (p : Nat → Bool) (n : Nat) :
    ((List.range (n + 1)).filter p).foldl max 0 = Nat.findGreatest (fun j => p j = true) n := by
  induction n with
  | zero => cases h : p 0 <;> simp [List.range_succ, h]
  | succ n ih =>
    rw [List.range_succ, List.filter_append, List.foldl_append, ih, Nat.findGreatest_succ]
    have below := Nat.findGreatest_le (P := fun j => p j = true) n
    cases h : p (n + 1) <;> simp [h]
    omega

theorem stageAt_eq (x : Nat) :
    stageAt stages x = Nat.findGreatest (fun j => boundary stages j ≤ min x 1024) stages := by
  simp [stageAt, foldl_max_filter_range]

theorem stageAt_le (x : Nat) : stageAt stages x ≤ stages := by
  rw [stageAt_eq]
  exact Nat.findGreatest_le _

theorem boundary_stageAt_le (x : Nat) : boundary stages (stageAt stages x) ≤ min x 1024 := by
  rw [stageAt_eq]
  exact Nat.findGreatest_spec (P := fun j => boundary stages j ≤ min x 1024) stages.zero_le
    (boundary_zero.trans_le (Nat.zero_le _))

theorem le_stageAt {j x : Nat} (hj : j ≤ stages) (h : boundary stages j ≤ min x 1024) : j ≤ stageAt stages x := by
  rw [stageAt_eq]
  exact Nat.le_findGreatest hj h

theorem stageAt_mono {x y : Nat} (h : x ≤ y) : stageAt stages x ≤ stageAt stages y :=
  le_stageAt (stageAt_le x) ((boundary_stageAt_le x).trans (by omega))

/-- Below the first boundary the stage read is 0. -/
theorem stageAt_eq_zero {x : Nat} (h : x < zoneWidth stages) : stageAt stages x = 0 := by
  by_contra hne
  have first := boundary_mono (stages := stages) (Nat.one_le_iff_ne_zero.2 hne)
  have spec := boundary_stageAt_le (stages := stages) x
  rw [boundary_one] at first
  omega

/-- From the top boundary on it is S. -/
theorem stageAt_eq_top {x : Nat} (h : 1024 ≤ x + zoneWidth stages) : stageAt stages x = stages := by
  refine (stageAt_le x).antisymm (le_stageAt le_rfl ?_)
  have top := zone_wide (stages := stages) stages
  rw [boundary_succ_stages] at top
  omega

/-- At most 60 stages leave every zone a width of at least 16. -/
theorem sixteen_le_zoneWidth (h : stages ≤ 60) : 16 ≤ zoneWidth stages :=
  (Nat.le_div_iff_mul_le stages.succ_pos).2 (by omega)

/-! ### The effective hysteresis and the stage rule (R74, R75) -/

theorem effectiveHysteresis_lt (hysteresis : Nat) (h : stages ≤ 60) :
    effectiveHysteresis hysteresis stages < zoneWidth stages := by
  have wide := sixteen_le_zoneWidth h
  rw [effectiveHysteresis]
  omega

section
variable {he q c : Nat}

theorem stageRule_le (hc : c ≤ stages) : stageRule stages he q c ≤ stages := by
  unfold stageRule
  split_ifs
  · exact stageAt_le _
  · exact stageAt_le _
  · exact hc

theorem stageRule_up (h : c < stageAt stages (q - he)) : stageRule stages he q c = stageAt stages (q - he) := if_pos h

theorem stageRule_down (h : stageAt stages (q + he) < c) : stageRule stages he q c = stageAt stages (q + he) := by
  have between := stageAt_mono (stages := stages) (show q - he ≤ q + he by omega)
  rw [stageRule, if_neg (by omega), if_pos h]

theorem stageRule_stay (low : stageAt stages (q - he) ≤ c) (high : c ≤ stageAt stages (q + he)) :
    stageRule stages he q c = c := by
  rw [stageRule, if_neg (by omega), if_neg (by omega)]

/-- The upper end of the travel sets the top stage from every stage. -/
theorem stageRule_full (h : he ≤ zoneWidth stages) (hc : c ≤ stages) : stageRule stages he 1024 c = stages := by
  have low : stageAt stages (1024 - he) = stages := stageAt_eq_top (by omega)
  have high : stageAt stages (1024 + he) = stages := stageAt_eq_top (by omega)
  obtain hlt | rfl := hc.lt_or_eq
  · rw [stageRule_up (by omega), low]
  · exact stageRule_stay low.le high.ge

/-- The lower end of the travel sets stage 0 from every stage. -/
theorem stageRule_closed (h : he < zoneWidth stages) (c : Nat) : stageRule stages he 0 c = 0 := by
  have low : stageAt stages (0 - he) = 0 := stageAt_eq_zero (by omega)
  have high : stageAt stages (0 + he) = 0 := stageAt_eq_zero (by omega)
  obtain rfl | hpos := c.eq_zero_or_pos
  · exact stageRule_stay low.le (Nat.zero_le _)
  · rw [stageRule_down (by omega), high]

end

end

/-- Settles O47: the top zone is the zone from b(S) to b(S + 1), and He is below the zone width. -/
theorem stageZones : Obligations.StageZones := by
  intro stages _ hmax
  have top := zone_wide (stages := stages) stages
  rw [boundary_succ_stages] at top
  refine ⟨boundary_zero, fun j _ _ => rfl, fun x => ⟨stageAt_le x, boundary_stageAt_le x, fun j => le_stageAt⟩,
    stageAt_eq_zero (by have := sixteen_le_zoneWidth hmax; omega), stageAt_eq_top (by omega), rfl, fun j _ => ?_,
    by omega, fun j _ => ?_, by decide, by decide, fun h he hhe => ?_⟩
  · have wide := zone_wide (stages := stages) j
    omega
  · have widest := zone_le_top (stages := stages) j
    omega
  · have hlt : he < zoneWidth stages := hhe ▸ effectiveHysteresis_lt h hmax
    exact ⟨hhe, boundary_one, hlt, stageAt_eq_top (by omega), stageAt_eq_zero hlt, fun c q hc _ =>
      ⟨stageRule_full hlt.le hc, stageRule_closed hlt c, stageRule_le hc, stageRule_up, stageRule_down, stageRule_stay⟩⟩

end Sys2Proof.Machine

/-! ## Shoe samples and calibration (R69, R70, R72, R75, R81 to R83) -/

namespace Sys2Proof.Machine

/-! ### A request that is handed on (R138) -/

theorem finishWrite_eq (b : Block) (p : Purpose) (s : State) : ∃ m q, finishWrite b p s = { s with mem := m, port := q } :=
  serveUntil_eq ..

/-- The ACCEPTED write of a request completes, the request is handed on, and the sweep moves on (R138). -/
theorem handOn_accepting {s : State} {c : Nat} {r : Request} (h : s.rs.sweep = .accepting c r)
    (f : Nat → Request → State → State) :
    handOn r.kind f s = finish s (sweepOn c (f c r (finishWrite .rs .accept s))) := by
  rw [handOn, h]
  exact if_pos rfl

/-- The Request Scanner with a cell's result, its sweep moved on from the cell (R137, R140). -/
def State.answered (s : State) (c : Nat) (r : RequestResult) (v : Nat) : Requests :=
  Requests.movedOn { s.rs with completions := s.resultsWith (some c) r v } c

/-- A request that is completed at once changes the Request Scanner alone. -/
theorem answered_visible {s u : State} {m : Memory} {q : Port} (hu : u = { s with mem := m, port := q }) (c : Nat)
    (r : RequestResult) (v : Nat) : (sweepOn c (complete c r v u)).visible =
      ({ s with mem := u.mem, rs := s.answered c r v } : State).visible := by
  rw [sweepOn_visible, complete_visible, hu]
  rfl

/-! ### The crescendo image changes (R22, R75) -/

theorem recompute_speakingIsUnion (s : State) : SpeakingIsUnion (recompute s) := by
  intro n
  show (s.speaking).getLsbD n = (s.ru.ri.getLsbD n || s.cri.getLsbD n || (s.ru.tutti && s.ce.ti.getLsbD n))
  unfold State.speaking
  cases s.ru.tutti <;> simp

/-- The Crescendo Unit has taken values with which SI follows the crescendo image, an entry has been handed over, and
the Request Scanner holds `rs`: what a calibration and a program switch come to (R79, R81, R82). -/
def State.crescendoSet (s : State) (mem : Memory) (cu : Crescendo) (e : JournalEntry) (rs : Requests) : State :=
  { recompute { s with mem := mem, cu := cu } with jw := s.jw.handed e s.clock, rs := rs }

theorem crescendoSet_spec {s t : State} {mem : Memory} {cu : Crescendo} {e : JournalEntry} {rs : Requests}
    (h : t.visible = (s.crescendoSet mem cu e rs).visible) :
    t.visible.cu = { cu with mirror := { shadow := {} } } ∧ t.ru.ri = s.ru.ri ∧ t.ru.tutti = s.ru.tutti ∧
    SpeakingIsUnion t ∧ t.jw = (journal e s).jw ∧ t.rs = rs ∧ t.mem = mem ∧
    Same [.mem, .cu, .ru, .jw, .rs] s.visible t.visible := by
  have same : Same [.mem, .cu, .ru, .jw, .rs] s (s.crescendoSet mem cu e rs) :=
    fun p hp => by cases p <;> first | rfl | simp at hp
  have union : SpeakingIsUnion t.visible := h ▸ recompute_speakingIsUnion { s with mem := mem, cu := cu }
  exact ⟨(congrArg State.cu h :), (congrArg (fun x : State => x.ru.ri) h :), (congrArg (fun x : State => x.ru.tutti) h :),
    union, (congrArg State.jw h : t.jw = s.jw.handed e s.clock).trans (journal_jw e s).symm, (congrArg State.rs h :),
    (congrArg State.mem h :), h ▸ same.to_visible⟩

/-! ### The position (R72) -/

theorem positionOf_le (lo hi f : Nat) : positionOf lo hi f ≤ 1024 := min_le_right _ _

theorem positionOf_low {lo f : Nat} (h : f ≤ 16 * lo) (hi : Nat) : positionOf lo hi f = 0 := by
  simp [positionOf, Nat.sub_eq_zero_of_le h]

theorem positionOf_high {lo hi f : Nat} (hspan : lo < hi) (h : 16 * hi ≤ f) : positionOf lo hi f = 1024 := by
  refine min_eq_right ((Nat.le_div_iff_mul_le (by omega)).2 ?_)
  rw [Nat.mul_comm]
  exact Nat.mul_le_mul_right _ (by omega)

/-- Ends 256 apart: 16 sixteenths, one raw count, are 4 positions at most. -/
theorem positionOf_add_count {lo hi : Nat} (hspan : lo + 256 ≤ hi) (f : Nat) :
    positionOf lo hi (f + 16) ≤ positionOf lo hi f + 4 := by
  have quotient : (f + 16 - 16 * lo) * 1024 / (16 * (hi - lo)) ≤ (f - 16 * lo) * 1024 / (16 * (hi - lo)) + 4 :=
    calc (f + 16 - 16 * lo) * 1024 / (16 * (hi - lo))
        ≤ ((f - 16 * lo) * 1024 + 4 * (16 * (hi - lo))) / (16 * (hi - lo)) := Nat.div_le_div_right (by omega)
      _ = (f - 16 * lo) * 1024 / (16 * (hi - lo)) + 4 := Nat.add_mul_div_right _ _ (by omega)
  unfold positionOf
  omega

/-! ### A shoe sample (R69) -/

theorem shoeSample_ignored {valid : Bool} {raw : Nat} (h : valid = false ∨ 4095 < raw) (s : State) :
    shoeSample valid raw s = s := by
  refine if_neg ?_
  rw [Bool.and_eq_true, decide_eq_true_iff]
  rintro ⟨rfl, hraw⟩
  exact h.elim (by decide) (by omega)

theorem shoeSample_taken {raw : Nat} (h : raw ≤ 4095) {s : State} {f : Nat}
    (hf : f = s.cu.signal.sampled s.desc.header.filterShift raw) : shoeSample true raw s =
      takePosition (positionOf s.cu.lo s.cu.hi f) { s with cu := { s.cu with signal := .live f } } := by
  subst hf
  exact if_pos (by simp [h])

/-! ### CRESC_CALIBRATE (R81) -/

theorem exec_crescCalibrate {s : State} {c a0 a1 : Nat} (h : s.rs.sweep = .accepting c ⟨.crescCalibrate, a0, a1⟩) :
    exec .crescCalibrate s = finish s (sweepOn c (calibrate c a0 (finishWrite .rs .accept s))) :=
  handOn_accepting h (fun c r => calibrate c r.arg0)

section
variable {s : State} {c a0 f : Nat}

theorem calibrate_range (h : 1 < a0) : calibrate c a0 s = complete c .range 0 s := if_pos h

theorem calibrate_noSignal (h : a0 ≤ 1) (hs : s.cu.signal = .none) : calibrate c a0 s = complete c .noSignal 0 s := by
  rw [calibrate, if_neg (Nat.not_lt.2 h), hs]

/-- With a signal the span that the new end would leave decides. -/
theorem calibrate_signal (h : a0 ≤ 1) (hs : s.cu.signal = .live f ∨ s.cu.signal = .held f) : calibrate c a0 s =
    if a0 = 0 then if f / 16 + 256 ≤ s.cu.hi then calibrated c false (f / 16) s else complete c .range (f / 16) s
    else if s.cu.lo + 256 ≤ f / 16 then calibrated c true (f / 16) s else complete c .range (f / 16) s := by
  rw [calibrate, if_neg (Nat.not_lt.2 h)]
  obtain hs | hs := hs <;> rw [hs]

theorem calibrate_narrow (h : a0 ≤ 1) (hs : s.cu.signal = .live f ∨ s.cu.signal = .held f)
    (narrow : (a0 = 0 ∧ s.cu.hi < f / 16 + 256) ∨ (a0 = 1 ∧ f / 16 < s.cu.lo + 256)) :
    calibrate c a0 s = complete c .range (f / 16) s := by
  rw [calibrate_signal h hs]
  obtain ⟨rfl, narrow⟩ | ⟨rfl, narrow⟩ := narrow
  · rw [if_pos rfl, if_neg (Nat.not_le.2 narrow)]
  · rw [if_neg (by decide), if_neg (Nat.not_le.2 narrow)]

theorem calibrate_wide (h : a0 ≤ 1) (hs : s.cu.signal = .live f ∨ s.cu.signal = .held f)
    (wide : (a0 = 0 ∧ f / 16 + 256 ≤ s.cu.hi) ∨ (a0 = 1 ∧ s.cu.lo + 256 ≤ f / 16)) :
    ∃ high : Bool, a0 = high.toNat ∧ calibrate c a0 s = calibrated c high (f / 16) s := by
  rw [calibrate_signal h hs]
  obtain ⟨rfl, wide⟩ | ⟨rfl, wide⟩ := wide
  · exact ⟨false, rfl, by rw [if_pos rfl, if_pos wide]⟩
  · exact ⟨true, rfl, by rw [if_neg (by decide), if_pos wide]⟩

end

/-- The Crescendo Unit with new ends of the calibration: Q and the stage follow (R72, R75). -/
def State.recalibrated (s : State) (lo hi : Nat) : Crescendo :=
  { s.cu with
    lo := lo, hi := hi, q := positionOf lo hi s.cu.signal.f, stage := s.ruledStage (positionOf lo hi s.cu.signal.f) }

section
variable {s u : State} {m : Memory} {q : Port} (hu : u = { s with mem := m, port := q }) {lo hi : Nat} {high : Bool}
  (v : Nat) (hlo : lo = if high then s.cu.lo else v) (hhi : hi = if high then v else s.cu.hi) (c : Nat)
include hu hlo hhi

theorem calibrated_visible : (sweepOn c (calibrated c high v u)).visible =
    (s.crescendoSet u.mem (s.recalibrated lo hi)
      ⟨.calibrated, .consoleProcessor, s.ce.level, 0xFF, high.toNat, v, 0⟩ (s.answered c .ok v)).visible := by
  rw [sweepOn_visible, calibrated, complete_visible, journal_visible, hu, hlo, hhi]
  rfl

theorem calibrated_cu : (sweepOn c (calibrated c high v u)).cu =
    { s.recalibrated lo hi with mirror := { s.cu.mirror with stale := true } } := by
  have same : Same [.rs, .jw, .port] (markCrescendo (takePosition (positionOf lo hi u.cu.signal.f)
      { u with cu := { u.cu with lo := lo, hi := hi } })) (sweepOn c (calibrated c high v u)) := by
    rw [hlo, hhi, hu]
    simp [calibrated]
  rw [← (same.get .cu :), hu]
  rfl

end

/-- A command that marks the crescendo mirrors stale whatever changed: the update begins, or waits for the end of the one
in progress (R81, R83). -/
theorem finish_crescendo_isMarked {before s t : State} (hr : s.inReset = false) (h : finish before s = .next t)
    {m : Mirror CrescendoValues} (hm : s.cu.mirror = { m with stale := true }) :
    m.isMarked t.cu.mirror t.crescendoValues := by
  obtain ⟨begins, stands⟩ := finish_crescendo (m := { m with stale := true }) hr h (by rw [hm]; rfl)
  refine ⟨fun hup hfull => (stands (by simp [Mirror.begins, hup, hfull])).1, fun hor => (begins ?_).1⟩
  obtain hup | hfull := hor
  · simp [Mirror.begins, hup]
  · exact Mirror.begins_of_full hfull

/-- Settles O48: positions and samples by their equations; a calibration that is refused only answers, and one that
succeeds sets the unit (`calibrated_visible`) and marks its mirrors. -/
theorem shoeAndCalibration : Obligations.ShoeAndCalibration := by
  refine ⟨fun lo hi f hspan => ⟨positionOf_le lo hi f, fun h => positionOf_low h hi, positionOf_high (by omega),
    fun _ => rfl, positionOf_add_count hspan f⟩, fun s t valid raw ht => ⟨fun h => ht.trans (shoeSample_ignored h s), ?_⟩,
    fun s u c a0 a1 result hsweep hu hresult => ?_⟩
  · rintro rfl hraw f hf
    have same : Same [.cu, .ru] s t := by simp [ht]
    rw [shoeSample_taken hraw hf] at ht
    subst ht
    exact ⟨rfl, rfl, rfl, recompute_speakingIsUnion _, same⟩
  · obtain ⟨m, q, written⟩ := finishWrite_eq .rs .accept s
    have stands : Same [.mem, .port] s u := by simp [hu]
    rw [written] at hu
    obtain ⟨t, ht, hv⟩ := finish_completes s (sweepOn c (calibrate c a0 u))
    have cu : u.cu = s.cu := by rw [hu]
    have answer : ∀ r v, calibrate c a0 u = complete c r v u →
        t.visible = ({ s with mem := u.mem, rs := result r v } : State).visible := fun r v h => by
      rw [hv, h, answered_visible hu, hresult]
      rfl
    refine ⟨t, by rw [exec_crescCalibrate hsweep, written, ← hu, ht], fun h => answer _ _ (calibrate_range h),
      fun h hs => answer _ _ (calibrate_noSignal h (cu ▸ hs)), fun f h hs => ⟨fun narrow => answer _ _
        (calibrate_narrow h (cu ▸ hs) (cu ▸ narrow)), fun wide lo hi hlo hhi => ?_⟩⟩
    obtain ⟨high, rfl, eq⟩ := calibrate_wide (c := c) h (cu ▸ hs : u.cu.signal = .live f ∨ u.cu.signal = .held f) (cu ▸ wide)
    rw [eq] at ht hv
    have hf : s.cu.signal.f = f := by obtain hs | hs := hs <;> rw [hs] <;> rfl
    have hlo' : lo = if high then s.cu.lo else f / 16 := by rw [hlo]; cases high <;> rfl
    have hhi' : hi = if high then f / 16 else s.cu.hi := by rw [hhi]; cases high <;> rfl
    obtain ⟨tcu, ri, tutti, union, jw, rs, mem, same⟩ := crescendoSet_spec (hv.trans (calibrated_visible hu _ hlo' hhi' c))
    refine ⟨by rw [tcu, State.recalibrated, hf]; rfl, ri, tutti, union, rs.trans (hresult _ _).symm, jw, mem, same, fun hr => ?_⟩
    have reset : s.inReset = (sweepOn c (calibrated c high (f / 16) u)).inReset :=
      Same.get (ps := [.mem, .cu, .ru, .jw, .rs, .port]) (by simpa using stands.mono (by decide)) .inReset
    exact finish_crescendo_isMarked (reset.symm.trans hr) ht (by rw [calibrated_cu hu _ hlo' hhi'])

end Sys2Proof.Machine

/-! ## A program switch (R76, R78, R79, R82) -/

namespace Sys2Proof.Machine

/-! ### What the Crescendo Unit waits with at the end of a command (R83) -/

theorem isFor_of_mem_writeAccesses {p : Purpose} {a : Nat} {bytes : List Byte} {x : Access}
    (h : x ∈ writeAccesses p a bytes) : x.isFor p = true := by
  obtain ⟨k, v, rfl, -, -⟩ := mem_writeAccesses h
  exact beq_self_eq_true p

@[simp] theorem all_isFor_writeAccesses (p : Purpose) (a : Nat) (bytes : List Byte) :
    (writeAccesses p a bytes).all (Access.isFor p) = true :=
  List.all_eq_true.2 fun _ => isFor_of_mem_writeAccesses

@[simp] theorem all_isFor_mirrorWrite (full same : Bool) (a : Nat) (bytes : List Byte) :
    (mirrorWrite full same a bytes).all (Access.isFor .mirror) = true := by
  unfold mirrorWrite
  split
  · exact all_isFor_writeAccesses ..
  · rfl

theorem all_isFor_crescendoUpdate (count : BitVec 32) (full : Bool) (old new : CrescendoValues) :
    (updateAccesses 0x010180 count (crescendoWrites full old new)).all (Access.isFor .mirror) = true := by
  simp only [updateAccesses, crescendoWrites, List.all_append, all_isFor_writeAccesses, all_isFor_mirrorWrite,
    Bool.and_self]

/-- Where no full update is still to begin, the end of a command adds mirror writes at most to what the Crescendo Unit
waits with (R83). -/
theorem finish_get_cu {before s t : State} (hfull : s.cu.mirror.full = false) (h : finish before s = .next t) :
    ∃ later, (∀ x ∈ later, Access.isFor .mirror x = true) ∧
      t.port.get .cu = ⟨(s.port.get .cu).queue ++ later, (s.port.get .cu).buf⟩ := by
  have stands : t.port.get .cu = s.port.get .cu → ∃ later, (∀ x ∈ later, Access.isFor .mirror x = true) ∧
      t.port.get .cu = ⟨(s.port.get .cu).queue ++ later, (s.port.get .cu).buf⟩ := fun h =>
    ⟨[], by simp, by rw [h, List.append_nil]⟩
  cases hr : s.inReset with
  | true =>
    rw [finish_inReset hr] at h
    cases h
    exact stands rfl
  | false =>
    obtain ⟨begun, still⟩ := finish_crescendo hr h rfl
    cases hb : (s.cu.mirror.mark (before.crescendoValues.marking == s.crescendoValues.marking)).begins with
    | false => exact stands (still hb).2
    | true =>
      obtain ⟨-, port⟩ := begun hb
      rw [show Mirror.full (s.cu.mirror.mark _) = false from hfull] at port
      exact ⟨_, List.all_eq_true.1 (all_isFor_crescendoUpdate ..), port⟩

theorem sweepOn_get_ne {b : Block} (h : b ≠ .rs) (c : Nat) (s : State) : (sweepOn c s).port.get b = s.port.get b := by
  unfold sweepOn
  split_ifs
  · exact startRead_get_ne h ..
  · exact startRead_get_ne h ..
  · rfl

/-! ### The read of a field -/

theorem readProgramField_visible (l : ProgramLoad) (s : State) : (readProgramField l s).visible =
    { s.visible with cu := { s.visible.cu with loading := some l } } := rfl

theorem readProgramField_get_cu (l : ProgramLoad) (s : State) : (readProgramField l s).port.get .cu =
    ⟨(s.port.get .cu).queue ++ readAccesses (0x015000 + 4096 * l.program + l.read.offset) 2, []⟩ :=
  startRead_get_self ..

/-! ### CRESC_PROGRAM (R78) -/

theorem exec_crescProgram {s : State} {c p a1 : Nat} (h : s.rs.sweep = .accepting c ⟨.crescProgram, p, a1⟩) :
    exec .crescProgram s = finish s (sweepOn c (startProgram c p (finishWrite .rs .accept s))) :=
  handOn_accepting h (fun c r => startProgram c r.arg0)

section
variable {s : State} {c p : Nat}

theorem startProgram_range (h : 3 < p) : startProgram c p s = complete c .range 0 s := if_pos h

theorem startProgram_busy (h : p ≤ 3) (busy : s.cu.loading ≠ none) : startProgram c p s = complete c .busy 0 s := by
  obtain ⟨l, hl⟩ := Option.ne_none_iff_exists'.1 busy
  rw [startProgram, if_neg (Nat.not_lt.2 h), hl]

theorem startProgram_starts (h : p ≤ 3) (idle : s.cu.loading = none) :
    startProgram c p s = readProgramField ⟨p, c, {}⟩ s := by
  rw [startProgram, if_neg (Nat.not_lt.2 h), idle]

end

theorem programRequestTaken (s u : State) (c p a1 : Nat) (hsweep : s.rs.sweep = .accepting c ⟨.crescProgram, p, a1⟩)
    (hu : u = finishWrite .rs .accept s) :
    ∃ t, exec .crescProgram s = .next t ∧
      (∀ r, (3 < p ∧ r = .range) ∨ (p ≤ 3 ∧ s.cu.loading ≠ none ∧ r = .busy) →
        t.visible = ({ s with mem := u.mem, rs := s.answered c r 0 } : State).visible) ∧
      (p ≤ 3 → s.cu.loading = none →
        t.visible = ({ s with
          mem := u.mem
          cu := { s.cu with loading := some ⟨p, c, {}⟩ }
          rs := s.rs.movedOn c } : State).visible ∧
        (s.cu.mirror.full = false → ∃ later, (∀ x ∈ later, Access.isFor .mirror x = true) ∧ t.port.get .cu =
          ⟨(u.port.get .cu).queue ++ readAccesses (0x015000 + 4096 * p) 2 ++ later, []⟩)) := by
  obtain ⟨m, q, written⟩ := finishWrite_eq .rs .accept s
  rw [written] at hu
  obtain ⟨t, ht, hv⟩ := finish_completes s (sweepOn c (startProgram c p u))
  have cu : u.cu = s.cu := by rw [hu]
  refine ⟨t, by rw [exec_crescProgram hsweep, written, ← hu, ht], fun r refused => ?_, fun h idle => ?_⟩
  · obtain ⟨h, rfl⟩ | ⟨h, busy, rfl⟩ := refused
    · rw [hv, startProgram_range h, answered_visible hu]
    · rw [hv, startProgram_busy h (cu ▸ busy), answered_visible hu]
  · rw [startProgram_starts h (cu ▸ idle)] at ht hv
    refine ⟨?_, fun hfull => ?_⟩
    · rw [hv, sweepOn_visible, readProgramField_visible, hu]
      rfl
    · have same : Same [.rs, .port] (readProgramField ⟨p, c, {}⟩ u) (sweepOn c (readProgramField ⟨p, c, {}⟩ u)) := by simp
      have port := finish_get_cu (by rw [← (same.get .cu :), ← hfull, ← cu]; rfl) ht
      rw [sweepOn_get_ne (by decide), readProgramField_get_cu] at port
      exact port

/-! ### The images of a program (R76) -/

theorem stageImages_length (below : StopImage) (stages : List (List Nat)) :
    (stageImages below stages).length = stages.length + 1 := by
  induction stages generalizing below with
  | nil => rfl
  | cons stage stages ih => simp [stageImages, ih]

/-- CRI(j) holds the stops below the first stage and those of the first j stages. -/
theorem getLsbD_stageImages (stages : List (List Nat)) (below : StopImage) {j n : Nat} (hj : j ≤ stages.length)
    (hn : n < 384) : ((stageImages below stages).getD j 0).getLsbD n = true ↔
      below.getLsbD n = true ∨ ∃ record ∈ stages.take j, n ∈ record := by
  induction stages generalizing below j with
  | nil =>
    obtain rfl : j = 0 := Nat.le_zero.1 hj
    simp [stageImages]
  | cons stage stages ih =>
    cases j with
    | zero => simp [stageImages]
    | succ j =>
      have rest := ih (below ||| imageOfStops stage) (Nat.le_of_succ_le_succ hj)
      rw [BitVec.getLsbD_or, getLsbD_imageOfStops, Bool.or_eq_true, decide_eq_true_iff] at rest
      simp only [stageImages, List.getD_cons_succ, rest, hn, and_true, List.take_succ_cons, List.exists_mem_cons_iff,
        or_assoc]

/-! ### PROGRAM_READ_COMPLETION (R78, R79, R82) -/

theorem exec_programReadCompletion {s : State} {l : ProgramLoad} (h : s.cu.loading = some l) :
    exec .programReadCompletion s = finish s (takeProgramField l (finishRead .cu s)) := by
  show execProgramReadCompletion s = _
  rw [execProgramReadCompletion, h]

theorem switchedStage_eq (s : State) (n : Nat) :
    s.switchedStage n = if s.cu.signal = .none then 0 else stageAt n s.cu.q := by
  unfold State.switchedStage
  cases s.cu.signal <;> rfl

/-- The Crescendo Unit with a program made active (R79). -/
def State.switched (s : State) (program : Nat) (stages : List (List Nat)) : Crescendo :=
  { s.cu with
    program := some program, stageCount := stages.length, images := stageImages 0 stages
    stage := s.switchedStage stages.length, loading := none }

theorem finishProgram_visible {s u : State} {m : Memory} {q : Port} (hu : u = { s with mem := m, port := q })
    (l : ProgramLoad) (stages : List (List Nat)) : (finishProgram l stages u).visible =
      (s.crescendoSet u.mem (s.switched l.program stages)
        ⟨.crescProgram, .consoleProcessor, s.ce.level, 0xFF, l.program, s.switchedStage stages.length, 0⟩
        { s.rs with completions := s.resultsWith (some l.cell) .ok (s.switchedStage stages.length) }).visible := by
  rw [finishProgram, complete_visible, journal_visible, hu]
  rfl

section
variable {s u t : State} {l : ProgramLoad} {m : Memory} {q : Port} (hu : u = { s with mem := m, port := q })
include hu

theorem programLoad_failed {j : Nat} (htake : l.read.take s.desc.header.stops (natLE (u.readBytes .cu)) = .failed j) :
    (takeProgramField l u).visible = ({ s with
      mem := u.mem
      cu := { s.cu with loading := none }
      rs := { s.rs with completions := s.resultsWith (some l.cell) .range j } } : State).visible := by
  have desc : u.desc = s.desc := by rw [hu]
  rw [takeProgramField, desc, htake]
  dsimp only
  rw [complete_visible, hu]
  rfl

theorem programLoad_more {read : ProgramRead}
    (htake : l.read.take s.desc.header.stops (natLE (u.readBytes .cu)) = .more read)
    (ht : finish s (takeProgramField l u) = .next t) :
    t.visible = ({ s with mem := u.mem, cu := { s.cu with loading := some { l with read := read } } } : State).visible ∧
    (s.cu.mirror.full = false → ∃ later, (∀ x ∈ later, Access.isFor .mirror x = true) ∧ t.port.get .cu =
      ⟨(u.port.get .cu).queue ++ readAccesses (0x015000 + 4096 * l.program + read.offset) 2 ++ later, []⟩) := by
  have desc : u.desc = s.desc := by rw [hu]
  have eq : takeProgramField l u = readProgramField { l with read := read } u := by
    rw [takeProgramField, desc, htake]
  rw [eq] at ht
  refine ⟨?_, fun hfull => ?_⟩
  · rw [finish_visible ht, readProgramField_visible, hu]
    rfl
  · have port := finish_get_cu (by rw [hu]; exact hfull) ht
    rw [readProgramField_get_cu] at port
    exact port

theorem programLoad_whole {stages : List (List Nat)}
    (htake : l.read.take s.desc.header.stops (natLE (u.readBytes .cu)) = .whole stages) :
    takeProgramField l u = finishProgram l stages u := by
  have desc : u.desc = s.desc := by rw [hu]
  rw [takeProgramField, desc, htake]

end

/-- A state that has its program switched has the images of the stages, and SI with them. -/
theorem programSwitched {s t : State} {mem : Memory} {program stage : Nat} {stages : List (List Nat)} {e : JournalEntry}
    {rs : Requests} (hstage : stage = if s.cu.signal = .none then 0 else stageAt stages.length s.cu.q)
    (h : t.visible = (s.crescendoSet mem (s.switched program stages) e rs).visible) :
    t.visible.cu = { s.visible.cu with
      program := some program, stageCount := stages.length, images := t.cu.images, stage := stage, loading := none } ∧
    t.cu.images.length = stages.length + 1 ∧
    ∀ j, j ≤ stages.length → ∀ n, n < 384 →
      ((t.cu.images.getD j 0).getLsbD n = true ↔ ∃ record ∈ stages.take j, n ∈ record) := by
  obtain ⟨cu, -⟩ := crescendoSet_spec h
  have images : t.cu.images = stageImages 0 stages := congrArg Crescendo.images cu
  refine ⟨?_, by rw [images, stageImages_length], fun j hj n hn => ?_⟩
  · rw [cu, images, hstage, ← switchedStage_eq]
    rfl
  · rw [images, getLsbD_stageImages stages 0 hj hn]
    simp

/-! ### What a field makes of the reading (R76, R78) -/

section
variable {n v : Nat} {r : ProgramRead}

theorem ProgramRead.take_stageCount (h : r.field = .stageCount) : r.take n v =
    if 1 ≤ v ∧ v ≤ 60 then .more ⟨.stopCount, r.offset + 2, v, r.stages, r.current⟩ else .failed 0 := by
  rw [ProgramRead.take, h]

theorem ProgramRead.take_stopCount (h : r.field = .stopCount) : r.take n v =
    if 32 < v then .failed (r.stages.length + 1)
    else if v = 0 then r.endStage (r.offset + 2) []
    else .more ⟨.stopNumber v, r.offset + 2, r.total, r.stages, []⟩ := by
  rw [ProgramRead.take, h]

theorem ProgramRead.take_stopNumber {left : Nat} (h : r.field = .stopNumber left) : r.take n v =
    if n ≤ v then .failed (r.stages.length + 1)
    else if left ≤ 1 then r.endStage (r.offset + 2) (r.current ++ [v])
    else .more ⟨.stopNumber (left - 1), r.offset + 2, r.total, r.stages, r.current ++ [v]⟩ := by
  rw [ProgramRead.take, h]

end

/-- Settles O49: the request is taken (`programRequestTaken`), a field read ends the load, is followed by the next or
makes the program active, and the three kinds of field have an equation each. -/
theorem programLoadChecked : Obligations.ProgramLoadChecked := by
  refine ⟨programRequestTaken, fun s u l out hload hu hout => ?_, fun n v r endsStage hends => ?_⟩
  · obtain ⟨m, q, read⟩ := finishRead_eq .cu s
    rw [read] at hu
    obtain ⟨t, ht, hv⟩ := finish_completes s (takeProgramField l u)
    refine ⟨t, by rw [exec_programReadCompletion hload, read, ← hu, ht], ?_, ?_, ?_⟩
    · rintro j rfl
      exact hv.trans (programLoad_failed hu hout.symm)
    · rintro read rfl
      exact programLoad_more hu hout.symm ht
    · rintro stages stage rfl hstage
      rw [programLoad_whole hu hout.symm, finishProgram_visible hu] at hv
      obtain ⟨cu, count, images⟩ := programSwitched hstage hv
      obtain ⟨-, ri, tutti, union, jw, rs, mem, same⟩ := crescendoSet_spec hv
      rw [switchedStage_eq, ← hstage] at jw rs
      exact ⟨cu, count, images, ri, tutti, union, jw, rs, mem, same⟩
  · have ends : ∀ stage, r.endStage (r.offset + 2) stage = endsStage stage := fun stage => (hends stage).symm
    refine ⟨ProgramRead.take_stageCount, fun h => ?_, fun left h => ?_⟩
    · rw [ProgramRead.take_stopCount h, ends]
    · rw [ProgramRead.take_stopNumber h, ends]

end Sys2Proof.Machine

/-! ## The debounce rule and the armed flag (R87, R90) -/

namespace Sys2Proof.Machine

/-! ### One sample (R87, R90) -/

section
variable {role : ContactRole} {c : Contact} {level : Bool}

/-- A sample that agrees with the accepted level starts the run anew. -/
theorem debounce_same (role : ContactRole) (c : Contact) :
    debounce role c c.closed = ⟨{ c with run := 0 }, false, false⟩ := if_pos rfl

/-- A sample that differs is counted while it is not yet the depth-th of its run. -/
theorem debounce_counts (h : c.run + 1 < role.depth) :
    debounce role c (!c.closed) = ⟨{ c with run := c.run + 1 }, false, false⟩ := by
  rw [debounce, if_neg (by simp), if_pos h]

/-- The depth-th sample of a run is accepted. -/
theorem debounce_accepts (h : role.depth ≤ c.run + 1) :
    debounce role c (!c.closed) =
      ⟨⟨!c.closed, 0, role.isPress && c.closed⟩, true, role.isPress && !c.closed && c.armed⟩ := by
  rw [debounce, if_neg (by simp), if_neg (by omega), Bool.not_not]

/-- The level accepted is the level sampled. -/
theorem debounce_closed_of_accepted (h : (debounce role c level).accepted = true) :
    (debounce role c level).contact.closed = level := by
  unfold debounce at h ⊢
  by_cases same : level = c.closed
  · rw [if_pos same] at h
    cases h
  · by_cases counts : c.run + 1 < role.depth
    · rw [if_neg same, if_pos counts] at h
      cases h
    · rw [if_neg same, if_neg counts]

/-- Only an accepted change of a press contact is a press (R90). -/
theorem accepted_of_press (h : (debounce role c level).press = true) :
    (debounce role c level).accepted = true ∧ role.isPress = true := by
  unfold debounce at h ⊢
  by_cases same : level = c.closed
  · rw [if_pos same] at h
    cases h
  · by_cases counts : c.run + 1 < role.depth
    · rw [if_neg same, if_pos counts] at h
      cases h
    · rw [if_neg same, if_neg counts] at h ⊢
      simp only [Bool.and_eq_true] at h
      exact ⟨rfl, h.1.1⟩

end

/-! ### Runs of samples (R87) -/

theorem debounceRun_append (role : ContactRole) (c : Contact) (xs : List Bool) (x : Bool) :
    debounceRun role c (xs ++ [x]) = (debounce role (debounceRun role c xs) x).contact := by
  induction xs generalizing c with
  | nil => rfl
  | cons y ys ih => exact ih _

section
variable {role : ContactRole} {c : Contact} (h0 : c.run = 0)
include h0

/-- Fewer differing samples than the depth are counted and change nothing else. -/
theorem debounceRun_replicate_of_lt {n : Nat} (hn : n < role.depth) :
    debounceRun role c (List.replicate n (!c.closed)) = { c with run := n } := by
  induction n with
  | zero => exact congrArg (fun n => { c with run := n }) h0
  | succ n ih =>
    rw [List.replicate_succ', debounceRun_append, ih (by omega),
      debounce_counts (c := { c with run := n }) hn]

/-- The depth-th consecutive differing sample is accepted. -/
theorem debounceRun_replicate_depth (hd : 1 ≤ role.depth) :
    debounceRun role c (List.replicate role.depth (!c.closed)) = ⟨!c.closed, 0, role.isPress && c.closed⟩ := by
  obtain ⟨n, hn⟩ : ∃ n, role.depth = n + 1 := ⟨role.depth - 1, by omega⟩
  rw [hn, List.replicate_succ', debounceRun_append, debounceRun_replicate_of_lt h0 (by omega),
    debounce_accepts (c := { c with run := n }) hn.le]

/-- Samples that differ and agree in turn never count further than 1. -/
theorem debounceRun_alternate (hd : 2 ≤ role.depth) (n : Nat) :
    debounceRun role c ((List.range n).map (fun k => if k % 2 = 0 then !c.closed else c.closed)) =
      { c with run := n % 2 } := by
  induction n with
  | zero => exact congrArg (fun n => { c with run := n }) h0
  | succ n ih =>
    rw [List.range_succ, List.map_append, List.map_singleton, debounceRun_append, ih]
    obtain even | odd := Nat.mod_two_eq_zero_or_one n
    · rw [even, if_pos rfl, debounce_counts (c := { c with run := 0 }) hd, Nat.succ_mod_two_eq_one_iff.2 even]
    · rw [odd, if_neg (by decide), debounce_same role { c with run := 1 }, Nat.succ_mod_two_eq_zero_iff.2 odd]

end

/-- Settles O50: the three cases of a sample (`debounce_same`, `debounce_counts`, `debounce_accepts`), and by induction
on the samples the runs of differing and of alternate ones. -/
theorem debounceRule : Obligations.DebounceRule := by
  intro role c hd _
  refine ⟨debounce_same role c, fun h => debounce_counts (by omega), fun h => ⟨_, debounce_accepts (by omega), ?_⟩,
    fun h0 => ⟨fun n => debounceRun_replicate_of_lt h0, ?_, ?_, fun hd2 n => ?_⟩⟩
  · rw [Bool.and_eq_true, Bool.and_eq_true, Bool.not_eq_true', and_assoc]
  · rw [debounceRun_replicate_depth h0 hd]
  · rw [debounceRun_replicate_depth h0 hd]
  · rw [debounceRun_alternate h0 hd2]

end Sys2Proof.Machine

/-! ## A contact sample (R85, R86, R91, R94) -/

namespace Sys2Proof.Machine

/-! ### The outcomes, contact by contact (R85, R87) -/

theorem sampleFrom_getElem (d : Desc) (i : Fin 16) (levels : BitVec 64) (n k : Nat) (cs : List Contact)
    (hk : k < (sampleFrom d i levels n cs).length) :
    (sampleFrom d i levels n cs)[k] =
      sampleContact d i levels (n + k) (cs[k]'(by rwa [sampleFrom_length] at hk)) := by
  induction cs generalizing n k with
  | nil => simp [sampleFrom] at hk
  | cons c cs ih =>
    cases k with
    | zero => rfl
    | succ k =>
      simp only [sampleFrom, List.getElem_cons_succ, ih]
      rw [Nat.add_right_comm, Nat.add_assoc]

/-- The outcome of one contact of a board at a sample (R86). -/
def State.outcome (s : State) (i : Fin 16) (levels : BitVec 64) (k : Fin 64) : Debounced :=
  sampleContact s.desc i levels k s.cs.contacts[i][k]

theorem sampleBank_getElem (s : State) (i : Fin 16) (levels : BitVec 64) (k : Fin 64) :
    (sampleBank s.desc i levels s.cs.contacts[i])[k] = s.outcome i levels k := by
  have h := sampleFrom_getElem s.desc i levels 0 k s.cs.contacts[i].toList (by simp [sampleFrom_length])
  rw [Nat.zero_add] at h
  exact h

theorem sampleBank_zipIdx (s : State) (i : Fin 16) (levels : BitVec 64) :
    (sampleBank s.desc i levels s.cs.contacts[i]).toList.zipIdx =
      (List.finRange 64).map (fun k => (s.outcome i levels k, k.val)) := by
  refine List.ext_getElem (by simp) fun k h _ => ?_
  have hk : k < 64 := by simpa using h
  have out := sampleBank_getElem s i levels ⟨k, hk⟩
  rw [List.getElem_zipIdx, List.getElem_map, List.getElem_finRange, Nat.zero_add]
  exact Prod.ext out rfl

section
variable {s : State} {i : Fin 16} {levels : BitVec 64} {k : Fin 64}

/-- An unwatched contact stands (R85). -/
theorem outcome_of_unwatched (h : s.desc.role i k.val = none) :
    s.outcome i levels k = { contact := s.cs.contacts[i][k] } := by
  rw [State.outcome, sampleContact, h]

theorem outcome_of_watched {r : ContactRole} (h : s.desc.role i k.val = some r) :
    s.outcome i levels k = debounce r s.cs.contacts[i][k] (levels.getLsbD k.val) := by
  rw [State.outcome, sampleContact, h]

end

/-! ### The hand moves and the presses of a sample as lists (R86) -/

/-- The hand move that the outcome of a contact is: its stop, and whether it is closed (R91). -/
def moveOf (d : Desc) (i : Fin 16) (o : Debounced) (n : Nat) : Option (Nat × Bool) :=
  match d.role i n with
  | some (.sense stop _) => if o.accepted then some (stop, o.contact.closed) else none
  | _ => none

/-- The press that the outcome of a contact is (R90). -/
def pressOf (d : Desc) (i : Fin 16) (o : Debounced) (n : Nat) : Option ContactRole :=
  if o.press then d.role i n else none

theorem handMoves_eq_foldl (d : Desc) (i : Fin 16) (n : Nat) (os : List Debounced) (s : State) :
    handMoves d i n os s =
      ((os.zipIdx n).filterMap (fun x => moveOf d i x.1 x.2)).foldl (fun x m => handMove m.1 m.2 x) s := by
  induction os generalizing n s with
  | nil => rfl
  | cons o os ih =>
    rw [handMoves, ih, List.zipIdx_cons, List.filterMap_cons, moveOf]
    cases d.role i n with
    | none => rfl
    | some r => cases r <;> cases o.accepted <;> rfl

theorem presses_eq_foldl (d : Desc) (i : Fin 16) (held : Bool) (n : Nat) (os : List Debounced) (s : State) :
    presses d i held n os s =
      ((os.zipIdx n).filterMap (fun x => pressOf d i x.1 x.2)).foldl (fun x r => pressContact held r x) s := by
  induction os generalizing n s with
  | nil => rfl
  | cons o os ih =>
    rw [presses, ih, List.zipIdx_cons, List.filterMap_cons, pressOf]
    cases o.press with
    | false => rfl
    | true => cases d.role i n <;> rfl

/-- The hand moves of a sample, in ascending contact index (R91; log entry 16). -/
def State.sampleMoves (s : State) (i : Fin 16) (levels : BitVec 64) : List (Nat × Bool) :=
  (List.finRange 64).filterMap (fun k => moveOf s.desc i (s.outcome i levels k) k)

/-- The presses of a sample, in ascending contact index (R94). -/
def State.samplePresses (s : State) (i : Fin 16) (levels : BitVec 64) : List ContactRole :=
  (List.finRange 64).filterMap (fun k => pressOf s.desc i (s.outcome i levels k) k)

/-- The state once a sample of a board is debounced, before its hand moves (R86). -/
def State.debounced (s : State) (i : Fin 16) (levels : BitVec 64) : State :=
  { s with cs := { s.cs with
      contacts := s.cs.contacts.set i
        (mapVector Debounced.contact (sampleBank s.desc i levels s.cs.contacts[i])) i.isLt } }

/-- A sample is debounced, and then takes its hand moves and its presses, SET as the debounce left it (R86). -/
theorem contactSample_eq (i : Fin 16) (levels : BitVec 64) (s : State) :
    contactSample i levels s =
      (s.samplePresses i levels).foldl (fun x r => pressContact (s.debounced i levels).setHeld r x)
        ((s.sampleMoves i levels).foldl (fun x m => handMove m.1 m.2 x) (s.debounced i levels)) := by
  show presses _ _ _ _ _ (handMoves _ _ _ _ _) = _
  rw [presses_eq_foldl, handMoves_eq_foldl, sampleBank_zipIdx, List.filterMap_map, List.filterMap_map]
  rfl

/-! ### The contacts after a sample (R85, R91) -/

/-- A hand move changes no accepted level (R91). -/
theorem handMove_contacts (n : Nat) (closed : Bool) (s : State) :
    (handMove n closed s).cs.contacts = s.cs.contacts := by
  have rest : Same [.ru, .ms, .lc] (setContactBit n closed s) (handMove n closed s) := by
    unfold handMove
    generalize setContactBit n closed s = u
    dsimp only
    (repeat' split) <;> simp
  exact (congrArg Scanner.contacts (rest.get .cs)).symm

theorem foldl_handMove_contacts (moves : List (Nat × Bool)) (s : State) :
    (moves.foldl (fun x m => handMove m.1 m.2 x) s).cs.contacts = s.cs.contacts := by
  induction moves generalizing s with
  | nil => rfl
  | cons m moves ih => exact (ih _).trans (handMove_contacts ..)

/-- A press leaves the Contact Scanner (R93). -/
theorem foldl_pressContact_cs (held : Bool) (pressed : List ContactRole) (s : State) :
    (pressed.foldl (fun x r => pressContact held r x) s).cs = s.cs := by
  have same : Same [.ce, .ru, .ms, .lc, .sq, .jw, .rs, .port] s (pressed.foldl (fun x r => pressContact held r x) s) :=
    foldl_same _ (fun x r => by simp) pressed s
  exact (same.get .cs).symm

theorem contactSample_contacts (i : Fin 16) (levels : BitVec 64) (s : State) :
    (contactSample i levels s).cs.contacts = (s.debounced i levels).cs.contacts := by
  rw [contactSample_eq, foldl_pressContact_cs, foldl_handMove_contacts]

theorem debounced_contacts_ne (s : State) {i j : Fin 16} (h : j ≠ i) (levels : BitVec 64) :
    (s.debounced i levels).cs.contacts[j] = s.cs.contacts[j] :=
  Vector.getElem_set_ne i.isLt j.isLt fun e => h (Fin.ext e.symm)

theorem debounced_contacts_self (s : State) (i : Fin 16) (levels : BitVec 64) (k : Fin 64) :
    (s.debounced i levels).cs.contacts[i][k] = (s.outcome i levels k).contact := by
  rw [← sampleBank_getElem]
  simp [State.debounced, mapVector]

/-! ### Samples that accept no change, or one (R86) -/

/-- Where one element alone of a list without repetitions is kept, the rest is empty. -/
theorem filterMap_eq_toList {α β : Type} {f : α → Option β} {l : List α} (hl : l.Nodup) {k : α} (hk : k ∈ l)
    (h : ∀ j ∈ l, j ≠ k → f j = none) : l.filterMap f = (f k).toList := by
  obtain ⟨before, after, rfl⟩ := List.append_of_mem hk
  have nodup := List.nodup_middle.1 hl
  have nothing : ∀ m : List α, m ⊆ before ++ after → m.filterMap f = [] := fun m hm =>
    List.filterMap_eq_nil_iff.2 fun j hj => h j
      (by have := hm hj; simp only [List.mem_append, List.mem_cons] at this ⊢; tauto)
      (fun e => (List.nodup_cons.1 nodup).1 (e ▸ hm hj))
  rw [List.filterMap_append, List.filterMap_cons, nothing before (List.subset_append_left ..),
    nothing after (List.subset_append_right ..)]
  cases f k <;> rfl

section
variable {s : State} {i : Fin 16} {levels : BitVec 64} {k : Fin 64} {r : ContactRole}

theorem moveOf_of_sense {n depth : Nat} (h : s.desc.role i k.val = some (.sense n depth)) :
    moveOf s.desc i (s.outcome i levels k) k =
      if (s.outcome i levels k).accepted then some (n, levels.getLsbD k.val) else none := by
  rw [moveOf, h]
  dsimp only
  split
  · rename_i accepted
    rw [outcome_of_watched h] at accepted ⊢
    rw [debounce_closed_of_accepted accepted]
  · rfl

theorem moveOf_of_press (h : s.desc.role i k.val = some r) (hp : r.isPress = true) (o : Debounced) :
    moveOf s.desc i o k = none := by
  rw [moveOf, h]
  cases r with
  | sense => cases hp
  | tablet => rfl
  | piston => rfl

theorem pressOf_of_watched (h : s.desc.role i k.val = some r) :
    pressOf s.desc i (s.outcome i levels k) k = if (s.outcome i levels k).press then some r else none := by
  rw [pressOf, h]

/-- A contact whose change is not accepted gives no hand move and no press. -/
theorem none_of_not_accepted
    (h : ∀ q, s.desc.role i k.val = some q → (s.outcome i levels k).accepted = false) :
    moveOf s.desc i (s.outcome i levels k) k = none ∧ pressOf s.desc i (s.outcome i levels k) k = none := by
  cases hr : s.desc.role i k.val with
  | none => exact ⟨by rw [moveOf, hr], by rw [pressOf, hr, ite_self]⟩
  | some q =>
    have refused := h q hr
    constructor
    · rw [moveOf, hr, refused]
      cases q <;> rfl
    · rw [pressOf_of_watched hr, if_neg]
      intro press
      rw [outcome_of_watched hr] at press refused
      rw [(accepted_of_press press).1] at refused
      cases refused

/-- A sample that accepts no change is the debounce alone. -/
theorem contactSample_of_none
    (h : ∀ (k : Fin 64) r, s.desc.role i k.val = some r → (s.outcome i levels k).accepted = false) :
    contactSample i levels s = s.debounced i levels := by
  have moves : s.sampleMoves i levels = [] :=
    List.filterMap_eq_nil_iff.2 fun k _ => (none_of_not_accepted (h k)).1
  have pressed : s.samplePresses i levels = [] :=
    List.filterMap_eq_nil_iff.2 fun k _ => (none_of_not_accepted (h k)).2
  rw [contactSample_eq, moves, pressed]
  rfl

/-- A sample that accepts no change but that of one contact takes at most its hand move and its press. -/
theorem contactSample_of_one
    (others : ∀ (j : Fin 64) q, j ≠ k → s.desc.role i j.val = some q → (s.outcome i levels j).accepted = false) :
    contactSample i levels s =
      (pressOf s.desc i (s.outcome i levels k) k).toList.foldl
        (fun x r => pressContact (s.debounced i levels).setHeld r x)
        ((moveOf s.desc i (s.outcome i levels k) k).toList.foldl (fun x m => handMove m.1 m.2 x)
          (s.debounced i levels)) := by
  have moves : s.sampleMoves i levels = _ := filterMap_eq_toList (List.nodup_finRange 64) (List.mem_finRange k)
    fun j _ hj => (none_of_not_accepted fun q => others j q hj).1
  have pressed : s.samplePresses i levels = _ := filterMap_eq_toList (List.nodup_finRange 64) (List.mem_finRange k)
    fun j _ hj => (none_of_not_accepted fun q => others j q hj).2
  rw [contactSample_eq, moves, pressed]

end

/-- Settles O51: a sample is its debounce, then its hand moves and then its presses (`contactSample_eq`), and the hand
moves and presses leave the accepted levels (`contactSample_contacts`). -/
theorem sampleDebouncesContacts : Obligations.SampleDebouncesContacts := by
  intro s t u i levels out ht hu hout
  have contacts : t.cs.contacts = (s.debounced i levels).cs.contacts := ht ▸ contactSample_contacts i levels s
  have debounced : u = s.debounced i levels := by rw [hu, contacts]; rfl
  have outcome : ∀ {k : Fin 64} {r}, s.desc.role i k.val = some r → out k r = s.outcome i levels k :=
    fun {k r} h => (hout k r).trans (outcome_of_watched h).symm
  subst debounced ht
  refine ⟨fun j hj => ?_, fun k => ⟨fun h => ?_, fun r h => ?_⟩, fun moves pressed hm hp => ?_, fun h => ?_,
    fun k r hr accepted others => ?_⟩
  · rw [contacts, debounced_contacts_ne s hj]
  · rw [contacts, debounced_contacts_self, outcome_of_unwatched h]
  · rw [contacts, debounced_contacts_self, outcome h]
  · have moves_eq : moves = s.sampleMoves i levels := by
      rw [hm]
      refine List.filterMap_congr fun k _ => ?_
      cases hr : s.desc.role i k.val with
      | none => rw [moveOf, hr]
      | some r =>
        cases r with
        | sense n depth => rw [moveOf_of_sense hr, ← outcome hr]
        | tablet => rw [moveOf_of_press hr rfl]
        | piston => rw [moveOf_of_press hr rfl]
    have pressed_eq : pressed = s.samplePresses i levels := by
      rw [hp]
      refine List.filterMap_congr fun k _ => ?_
      cases hr : s.desc.role i k.val with
      | none => rw [pressOf, hr, ite_self]
      | some r => rw [pressOf_of_watched hr, ← outcome hr]
    rw [moves_eq, pressed_eq, contactSample_eq]
  · exact contactSample_of_none fun k r hr => outcome hr ▸ h k r hr
  · rw [contactSample_of_one (k := k) fun j q hj hq => outcome hq ▸ others j q hj hq, pressOf_of_watched hr]
    rw [outcome hr] at accepted ⊢
    refine ⟨?_, fun hpress press => ?_, fun hpress press => ?_⟩
    · rintro n depth rfl
      have silent : ¬ (s.outcome i levels k).press = true := by
        rw [outcome_of_watched hr]
        exact fun press => Bool.false_ne_true (accepted_of_press press).2
      rw [moveOf_of_sense hr, if_pos accepted, if_neg silent]
      rfl
    · rw [moveOf_of_press hr hpress, if_pos press]
      rfl
    · rw [moveOf_of_press hr hpress, press]
      rfl

end Sys2Proof.Machine

/-! ## Presses, and what an offer to the action queue or the step list does (R44, R45, R62, R92, R93, R95) -/

namespace Sys2Proof.Machine

/-! ### When SET is held (R92) -/

theorem takesPart_iff (b : BoardState) : b.takesPart = true ↔ b = .present ∨ b = .suspect := by
  cases b <;> simp [BoardState.takesPart]

theorem setHeld_iff (s : State) : s.setHeld = true ↔ ∃ p ∈ s.desc.pistons, p.function = .set ∧
    s.isClosed (boardPlace p.board) p.contact = true ∧
    ((s.lc.boards[boardPlace p.board]).state = .present ∨ (s.lc.boards[boardPlace p.board]).state = .suspect) := by
  simp only [State.setHeld, List.any_eq_true, Bool.and_eq_true, beq_iff_eq, takesPart_iff, and_assoc]

/-! ### What a piston does (R93) -/

section
variable {p : PistonRec} (held : Bool) (s : State)

theorem press_general {n : Nat} (h : p.function = .general n) : pressContact held (.piston p) s =
    offerAction ⟨if held then .capture s.ce.level n else .recall s.ce.level n, p.origin, none⟩ s := by
  rw [pressContact, pressPiston, h]

theorem press_divisional {d n : Nat} (h : p.function = .divisional d n) : pressContact held (.piston p) s =
    offerAction ⟨if held then .capture s.ce.level (48 + 10 * d + n) else .recall s.ce.level (48 + 10 * d + n),
      p.origin, none⟩ s := by
  rw [pressContact, pressPiston, h]
  rfl

theorem press_cancel (h : p.function = .cancel) :
    pressContact held (.piston p) s = offerAction ⟨.cancel, p.origin, none⟩ s := by
  rw [pressContact, pressPiston, h]

theorem press_undo (h : p.function = .undo) :
    pressContact held (.piston p) s = offerAction ⟨.undo, p.origin, none⟩ s := by
  rw [pressContact, pressPiston, h]

theorem press_tutti (h : p.function = .tutti) : pressContact held (.piston p) s =
    offerAction ⟨if held then .tuttiCapture else .tutti .toggle, p.origin, none⟩ s := by
  rw [pressContact, pressPiston, h]

theorem press_reversible {n : Nat} (h : p.function = .reversible n) :
    pressContact held (.piston p) s = offerAction ⟨.reverse n, p.origin, none⟩ s := by
  rw [pressContact, pressPiston, h]

theorem press_set (h : p.function = .set) : pressContact held (.piston p) s = s := by
  rw [pressContact, pressPiston, h]

theorem press_next (h : p.function = .next) :
    pressContact held (.piston p) s = offerStep ⟨.next, p.origin, none⟩ s := by
  rw [pressContact, pressPiston, h]

theorem press_prev (h : p.function = .prev) :
    pressContact held (.piston p) s = offerStep ⟨.prev, p.origin, none⟩ s := by
  rw [pressContact, pressPiston, h]

/-- A level piston changes the level, with wrap (R42). -/
theorem press_level {v : Nat}
    (h : (p.function = .levelUp ∧ v = if s.ce.level + 1 = s.desc.header.levels then 0 else s.ce.level + 1) ∨
      (p.function = .levelDown ∧ v = if s.ce.level = 0 then s.desc.header.levels - 1 else s.ce.level - 1)) :
    pressContact held (.piston p) s = changeLevel v p.origin s := by
  obtain ⟨h, rfl⟩ | ⟨h, rfl⟩ := h
  · rw [pressContact, pressPiston, h]
    rfl
  · rw [pressContact, pressPiston, h]
    rfl

end

/-! ### Arrivals (R44, R62) -/

section
variable {s : State} {a : Action} {r : StepRequest}

theorem joinActions_of_room (h : s.ce.queue.length < 8) :
    joinActions a s = setActionQueue (s.ce.queue ++ [a]) s :=
  if_neg (show ¬ s.ce.queue.length ≥ 8 by omega)

theorem joinActions_of_full (h : 8 ≤ s.ce.queue.length) : joinActions a s = overrun a s := if_pos h

theorem overrun_get_ne {b : Block} (hjw : b ≠ .jw) (hrs : b ≠ .rs) (a : Action) (s : State) :
    (overrun a s).port.get b = s.port.get b := by
  rw [overrun, completeIf_get_ne hrs, journal_get_ne hjw]

theorem joinSteps_of_room (h : s.sq.list.length < 4) : joinSteps r s = setStepList (s.sq.list ++ [r]) s :=
  if_neg (show ¬ s.sq.list.length ≥ 4 by omega)

theorem joinSteps_of_full (h : 4 ≤ s.sq.list.length) : joinSteps r s =
    completeIf r.cell .full (s.unstated r.cell) (if r.kind.isStep then journal (s.refusedStep r.origin) s else s) :=
  if_pos h

theorem setStepList_waits (r : StepRequest) (s : State) :
    waitsNow s (setStepList (s.sq.list ++ [r]) s) .sq [(0x0101B2, s.sq.list.length + 1)] [] := by
  rw [waitsNow, setStepList_get_sq (by simp), List.append_nil]
  simp

theorem isStep_iff (k : StepKind) : k.isStep = true ↔ k = .next ∨ k = .prev := by
  cases k <;> simp [StepKind.isStep]

/-- A request that finds the list full is dropped, and a NEXT or PREV is journaled (R62). -/
theorem joinSteps_of_full_spec (h : 4 ≤ s.sq.list.length) :
    (joinSteps r s).port.get .sq = s.port.get .sq ∧ (joinSteps r s).visible = ({ s with
      jw := if r.kind = .next ∨ r.kind = .prev then
        (journal ⟨.sequence, r.origin, s.ce.level, 0xFF, s.sq.position.getD 0xFFFF, 0xFFFF, 0⟩ s).jw else s.jw
      rs := { s.rs with completions := s.resultsWith r.cell .full (s.unstated r.cell) } } : State).visible := by
  rw [joinSteps_of_full h, completeIf_get_ne (by decide), completeIf_visible]
  by_cases step : r.kind = .next ∨ r.kind = .prev
  · rw [if_pos ((isStep_iff _).2 step), if_pos step, journal_get_ne (by decide), journal_visible, journal_jw,
      State.refusedStep, positionCode_eq]
    exact ⟨rfl, rfl⟩
  · rw [if_neg (mt (isStep_iff _).1 step), if_neg step]
    exact ⟨rfl, rfl⟩

end

/-! ### The head is taken (R45, R62) -/

/-- The command of an action's kind has the engine take its queue where the head is of that kind (R45). -/
theorem exec_of_nextAction {s : State} {a : Action} (h : s.nextAction = some a) :
    exec a.kind.command s = finish s (takeActions s) := by
  obtain ⟨kind, origin, cell⟩ := a
  match kind, h with
  | .recall _ _, h => show execRecall s = _; rw [execRecall, h]
  | .capture _ _, h => show execCapture s = _; rw [execCapture, h]
  | .cancel, h => show execCancel s = _; rw [execCancel, h]
  | .tutti _, h => show execTutti s = _; rw [execTutti, h]
  | .tuttiCapture, h => show execTuttiCapture s = _; rw [execTuttiCapture, h]
  | .reverse _, h => show execReverse s = _; rw [execReverse, h]
  | .stopSet _ _, h => show execStopSet s = _; rw [execStopSet, h]
  | .undo, h => show execUndo s = _; rw [execUndo, h]

theorem exec_command_of_nextStep {s : State} {r : StepRequest} (h : s.nextStep = some r) :
    exec r.kind.command s = finish s (takeSteps s) := by
  refine exec_of_nextStep h ?_
  cases r.kind with
  | next => exact .inl ⟨rfl, rfl⟩
  | prev => exact .inr (.inl ⟨rfl, rfl⟩)
  | set n => exact .inr (.inr ⟨rfl, n, rfl⟩)

theorem nextAction_eq_none_iff (s : State) :
    s.nextAction = none ↔ s.part ≠ .running ∨ s.ce.job ≠ none ∨ s.ce.queue = [] := by
  unfold State.nextAction
  split
  · rename_i idle
    simp [idle]
  · simp only [true_iff]
    tauto

theorem nextStep_eq_none_iff (s : State) :
    s.nextStep = none ↔ s.part ≠ .running ∨ s.sq.job ≠ none ∨ s.sq.list = [] := by
  unfold State.nextStep
  split
  · rename_i idle
    simp [idle]
  · simp only [true_iff]
    tauto

theorem nextAction_of_cons {s : State} {a : Action} {rest : List Action} (hp : s.part = .running)
    (hj : s.ce.job = none) (hq : s.ce.queue = a :: rest) : s.nextAction = some a := by
  rw [State.nextAction, if_pos ⟨hp, hj⟩, hq]
  rfl

theorem nextStep_of_cons {s : State} {r : StepRequest} {rest : List StepRequest} (hp : s.part = .running)
    (hj : s.sq.job = none) (hl : s.sq.list = r :: rest) : s.nextStep = some r := by
  rw [State.nextStep, if_pos ⟨hp, hj⟩, hl]
  rfl

/-- A take leaves the queue without its head (R44, R45). -/
theorem taken_queue (s : State) (a : Action) :
    (markStale s (performAction a (dropHead s))).ce.queue = s.ce.queue.tail :=
  (performAction_queue a (dropHead s)).trans (congrArg (fun v : State => v.ce.queue) (dropHead_visible s))

/-- The engine lengthens its queue by no take (R45). -/
theorem takeUpTo_queue_le (n : Nat) (s : State) : (takeUpTo n s).ce.queue.length ≤ s.ce.queue.length := by
  induction n generalizing s with
  | zero => exact le_rfl
  | succ n ih =>
    unfold takeUpTo
    split
    · refine (ih _).trans ?_
      rw [taken_queue, List.length_tail]
      exact Nat.sub_le _ _
    · exact le_rfl

theorem takeStepsUpTo_list_le (n : Nat) (s : State) : (takeStepsUpTo n s).sq.list.length ≤ s.sq.list.length := by
  induction n generalizing s with
  | zero => exact le_rfl
  | succ n ih =>
    unfold takeStepsUpTo
    split
    · refine (ih _).trans ?_
      rw [performStep_list, List.length_tail]
      exact Nat.sub_le _ _
    · exact le_rfl

/-- In RUNNING the Sequencer, once it has taken its list, is not IDLE while the list holds a request (R62). -/
theorem takeStepsUpTo_idle (n : Nat) (s : State) (hn : s.sq.list.length ≤ n) :
    (takeStepsUpTo n s).nextStep = none := by
  induction n generalizing s with
  | zero => exact (nextStep_eq_none_iff s).2 (.inr (.inr (List.length_eq_zero_iff.1 (by omega))))
  | succ n ih =>
    unfold takeStepsUpTo
    split
    · refine ih _ ?_
      rw [performStep_list, List.length_tail]
      omega
    · assumption

theorem takeSteps_idle (s : State) : (takeSteps s).nextStep = none := takeStepsUpTo_idle _ s le_rfl

/-- Where the engine may take the head, its command does, and leaves it busy or with no record waiting (R45). -/
theorem takeActions_of_cons {s : State} {a : Action} {rest : List Action} (hp : s.part = .running)
    (hj : s.ce.job = none) (hq : s.ce.queue = a :: rest) :
    ∃ v, exec a.kind.command s = .next v ∧ (takeActions s).visible = v.visible ∧
      (takeActions s).port.get .ce = v.port.get .ce ∧
      v.ce.queue.length ≤ rest.length ∧ (v.ce.job = none → v.ce.queue = []) := by
  have head := nextAction_of_cons hp hj hq
  obtain ⟨v, hv, visible, port⟩ := finish_spec s (takeActions s)
  have ce : v.ce = (takeActions s).ce := (congrArg State.ce visible : _)
  refine ⟨v, (exec_of_nextAction head).trans hv, visible.symm, (port .ce rfl).symm, ?_, fun idle => ?_⟩
  · rw [ce, takeActions_some s a head]
    refine (takeUpTo_queue_le _ _).trans ?_
    rw [taken_queue, hq, List.tail_cons]
  · have part : s.part = (takeActions s).part :=
      Same.get (ps := [.ce, .ru, .ms, .lc, .jw, .rs, .port]) (by simp) .part
    rw [ce] at idle ⊢
    obtain h | h | h := (nextAction_eq_none_iff _).1 (takeActions_idle s)
    · exact absurd (part ▸ hp) h
    · exact absurd idle h
    · exact h

/-- Where the Sequencer may take the head, its command does, and leaves it busy or with no request waiting (R62). -/
theorem takeSteps_of_cons {s : State} {r : StepRequest} {rest : List StepRequest} (hp : s.part = .running)
    (hj : s.sq.job = none) (hl : s.sq.list = r :: rest) :
    ∃ v, exec r.kind.command s = .next v ∧ (takeSteps s).visible = v.visible ∧
      (takeSteps s).port.get .sq = v.port.get .sq ∧
      v.sq.list.length ≤ rest.length ∧ (v.sq.job = none → v.sq.list = []) := by
  have head := nextStep_of_cons hp hj hl
  obtain ⟨v, hv, visible, port⟩ := finish_spec s (takeSteps s)
  have sq : v.sq = (takeSteps s).sq := (congrArg State.sq visible : _)
  refine ⟨v, (exec_command_of_nextStep head).trans hv, visible.symm, (port .sq rfl).symm, ?_, fun idle => ?_⟩
  · rw [sq, takeSteps_some s r head]
    refine (takeStepsUpTo_list_le _ _).trans ?_
    rw [performStep_list, hl, List.tail_cons]
  · have part : s.part = (takeSteps s).part := Same.get (ps := [.sq, .rs, .port]) (by simp) .part
    rw [sq] at idle ⊢
    obtain h | h | h := (nextStep_eq_none_iff _).1 (takeSteps_idle s)
    · exact absurd (part ▸ hp) h
    · exact absurd idle h
    · exact h

/-- Settles O52: when SET is held, one equation per piston function, the two arrivals by room, and the takes. -/
theorem pressesDecoded : Obligations.PressesDecoded := by
  refine ⟨setHeld_iff, fun s held p k hk => ?_, fun _ _ _ _ => rfl, fun s held p => ⟨press_set held s, fun k hk => ?_,
    fun v hv => ?_⟩, fun s a => ⟨joinActions a s, rfl, fun room => ?_, fun full => ?_⟩,
    fun s r => ⟨joinSteps r s, rfl, fun room => ?_, joinSteps_of_full_spec⟩,
    fun s => ⟨fun h => takeActions_none s ((nextAction_eq_none_iff s).2 h), fun a rest => takeActions_of_cons⟩,
    fun s => ⟨fun h => takeSteps_none s ((nextStep_eq_none_iff s).2 h), fun r rest => takeSteps_of_cons⟩⟩
  · obtain ⟨index, h | ⟨d, n, h, rfl⟩, rfl⟩ | ⟨h, rfl⟩ | ⟨h, rfl⟩ | ⟨h, rfl⟩ | ⟨n, h, rfl⟩ := hk
    · exact press_general held s h
    · exact press_divisional held s h
    · exact press_cancel held s h
    · exact press_undo held s h
    · exact press_tutti held s h
    · exact press_reversible held s h
  · obtain ⟨h, rfl⟩ | ⟨h, rfl⟩ := hk
    · exact press_next held s h
    · exact press_prev held s h
  · rw [press_level held s hv]
    refine ⟨?_, ?_⟩
    · rw [changeLevel_visible, journal_jw]
      rfl
    · rw [waitsNow, changeLevel_get_ce, List.append_nil]
  · rw [joinActions_of_room room, setActionQueue_visible]
    exact ⟨setActionQueue_waits a, rfl⟩
  · rw [joinActions_of_full full, overrun_get_ne (by decide) (by decide), overrun_visible, journal_jw]
    exact ⟨rfl, rfl⟩
  · rw [joinSteps_of_room room, setStepList_visible]
    exact ⟨setStepList_waits r s, rfl⟩

end Sys2Proof.Machine

/-! ## Rounds and frames on the jamb link (R119, R121, R123 to R125, R127, R133, R135, R137) -/

namespace Sys2Proof.Machine

/-! ### Which board a round addresses next (R123, R124) -/

theorem allBoards_getElem (i : Fin 16) (h : i.val < allBoards.length) : allBoards[i.val] = i := by
  revert i
  decide

/-- The pass goes to the first place that the round sends a request. -/
theorem nextBoard_eq_some {s : State} {place : Nat} {i : Fin 16} (hi : place ≤ i.val) (called : s.roundRequest i ≠ .none)
    (below : ∀ j : Fin 16, place ≤ j.val → j < i → s.roundRequest j = .none) : s.nextBoard place = some i := by
  have len : allBoards.length = 16 := rfl
  refine List.find?_eq_some_iff_getElem.2 ⟨by simp [hi, called], i.val, by rw [len]; exact i.isLt, allBoards_getElem i _, fun j hj => ?_⟩
  have at_j := allBoards_getElem ⟨j, by omega⟩ (by rw [len]; omega : j < allBoards.length)
  dsimp only at at_j
  rw [at_j]
  by_cases hp : place ≤ j
  · simp [below ⟨j, by omega⟩ hp hj]
  · simp [hp]

/-- The pass ends where no place is left that the round sends a request. -/
theorem nextBoard_eq_none {s : State} {place : Nat} (h : ∀ j : Fin 16, place ≤ j.val → s.roundRequest j = .none) :
    s.nextBoard place = none := by
  refine List.find?_eq_none.2 fun j _ => ?_
  by_cases hp : place ≤ j.val
  · simp [h j hp]
  · simp [hp]

/-- In RUNNING a described board is sent a POLL where it is PRESENT or SUSPECT, and otherwise a CENSUS in a round whose
number is a multiple of 16 (R123, R124). -/
theorem roundRequest_running {s : State} (hp : s.part = .running) (i : Fin 16) : s.roundRequest i =
    if (s.desc.board i).kind = .none then .none
    else if s.lc.boards[i].state = .present ∨ s.lc.boards[i].state = .suspect then .poll
    else if s.lc.round = 0 then .census else .none := by
  unfold State.roundRequest
  rw [hp]
  generalize s.lc.boards[i].state = b
  cases b <;> simp

theorem roundRequest_eq_none_iff_silent {s : State} (hp : s.part = .running) (i : Fin 16) :
    s.roundRequest i = .none ↔ s.silent s.lc.round i := by
  rw [roundRequest_running hp, State.silent]
  generalize s.lc.boards[i].state = b
  by_cases hk : (s.desc.board i).kind = .none
  · simp [hk]
  · by_cases hr : s.lc.round = 0 <;> cases b <;> simp [hk, hr]

theorem roundRequest_poll {s : State} {i : Fin 16} (hp : s.part = .running) (h : ¬ s.silent s.lc.round i)
    (takes : s.lc.boards[i].state = .present ∨ s.lc.boards[i].state = .suspect) : s.roundRequest i = .poll := by
  rw [roundRequest_running hp, if_neg fun k => h (.inl k), if_pos takes]

theorem roundRequest_of_not_taking {s : State} {i : Fin 16} (hp : s.part = .running) (h : ¬ s.silent s.lc.round i)
    (np : s.lc.boards[i].state ≠ .present) (ns : s.lc.boards[i].state ≠ .suspect) : s.roundRequest i = .census := by
  rw [roundRequest_running hp, if_neg fun k => h (.inl k), if_neg fun k => k.elim np ns, if_pos]
  exact not_not.1 fun k => h (.inr ⟨k, np, ns⟩)

/-- In CENSUS the pass goes to the first described board that is UNKNOWN (R123). -/
theorem nextBoard_census {s : State} {place : Nat} {i : Fin 16} (hp : s.part = .census) (hi : place ≤ i.val)
    (hk : (s.desc.board i).kind ≠ .none) (hu : s.lc.boards[i].state = .unknown)
    (below : ∀ j : Fin 16, place ≤ j.val → j < i → (s.desc.board j).kind = .none ∨ s.lc.boards[j].state ≠ .unknown) :
    s.nextBoard place = some i := by
  refine nextBoard_eq_some hi (by rw [roundRequest_census hp, if_pos ⟨hk, hu⟩]; decide) fun j hj hlt => ?_
  rw [roundRequest_census hp, if_neg]
  rintro ⟨hk', hu'⟩
  exact (below j hj hlt).elim hk' (fun h => h hu')

theorem nextBoard_census_none {s : State} {place : Nat} (hp : s.part = .census)
    (h : ∀ j : Fin 16, place ≤ j.val → (s.desc.board j).kind = .none ∨ s.lc.boards[j].state ≠ .unknown) :
    s.nextBoard place = none := by
  refine nextBoard_eq_none fun j hj => ?_
  rw [roundRequest_census hp, if_neg]
  rintro ⟨hk', hu'⟩
  exact (h j hj).elim hk' (fun h => h hu')

/-- In RUNNING the pass goes to the first board that the round is not silent to (R124). -/
theorem nextBoard_running {s : State} {place : Nat} {i : Fin 16} (hp : s.part = .running) (hi : place ≤ i.val)
    (called : ¬ s.silent s.lc.round i) (below : ∀ j : Fin 16, place ≤ j.val → j < i → s.silent s.lc.round j) :
    s.nextBoard place = some i :=
  nextBoard_eq_some hi (fun h => called ((roundRequest_eq_none_iff_silent hp i).1 h))
    fun j hj hlt => (roundRequest_eq_none_iff_silent hp j).2 (below j hj hlt)

theorem nextBoard_running_none {s : State} {place : Nat} (hp : s.part = .running)
    (h : ∀ j : Fin 16, place ≤ j.val → s.silent s.lc.round j) : s.nextBoard place = none :=
  nextBoard_eq_none fun j hj => (roundRequest_eq_none_iff_silent hp j).2 (h j hj)

/-! ### The request to a board (R119, R127, R130) -/

theorem beginExchange_census {s : State} {i : Fin 16} (h : s.roundRequest i = .census) :
    beginExchange i s = { s with lc := { s.lc with exchange := .sending i .census } } := if_pos h

/-- An exchange begins with the line and the board's open frame alone. -/
theorem beginExchange_eq (i : Fin 16) (s : State) : beginExchange i s = { s with lc := { s.lc with
    boards := (beginExchange i s).lc.boards, exchange := (beginExchange i s).lc.exchange } } := by
  unfold beginExchange
  split <;> rfl

theorem beginExchange_poll {s : State} {i : Fin 16} (h : s.roundRequest i ≠ .census) :
    PollSent s (beginExchange i s) i := by
  have frame : s.lc.boards[i].openFrame = some s.lc.boards[i].frameToSend ∨
      (s.lc.boards[i].openFrame = none ∧ s.lc.boards[i].frameToSend.toggle = s.lc.boards[i].toggle ∧
        s.lc.boards[i].frameToSend.commands = s.lc.boards[i].outgoing) := by
    unfold BoardLink.frameToSend
    cases s.lc.boards[i].openFrame with
    | some o => exact .inl rfl
    | none => exact .inr ⟨rfl, rfl, rfl⟩
  rw [beginExchange, if_neg h]
  exact ⟨_, _, frame, rfl, rfl⟩

/-- In RUNNING a board that the round is not silent to is sent a POLL where it takes part, and a CENSUS otherwise. -/
theorem beginExchange_running {s : State} {i : Fin 16} (hp : s.part = .running) (h : ¬ s.silent s.lc.round i) :
    (s.lc.boards[i].state = .present ∨ s.lc.boards[i].state = .suspect → PollSent s (beginExchange i s) i) ∧
    (s.lc.boards[i].state ≠ .present → s.lc.boards[i].state ≠ .suspect →
      (beginExchange i s).lc.boards = s.lc.boards ∧ (beginExchange i s).lc.exchange = .sending i .census) := by
  refine ⟨fun takes => beginExchange_poll (by rw [roundRequest_poll hp h takes]; decide), fun np ns => ?_⟩
  rw [beginExchange_census (roundRequest_of_not_taking hp h np ns)]
  exact ⟨rfl, rfl⟩

/-! ### The end of a round (R125, R133, R137) -/

theorem foldl_complete_visible (clears : List (Nat × Nat)) (s : State) :
    (clears.foldl (fun t c => complete c.1 .ok c.2 t) s).visible = { s.visible with rs := { s.rs with
      completions := s.rs.completions ++ clears.map (fun c => ⟨c.1, .ok, c.2, s.clock⟩) } } := by
  induction clears generalizing s with
  | nil => simp only [List.foldl_nil, List.map_nil, List.append_nil]; rfl
  | cons c clears ih =>
    rw [List.foldl_cons, ih, complete_rs, complete_visible, complete_clock]
    simp only [List.map_cons, List.append_assoc, List.singleton_append]

/-- A sweep trigger, as far as it is visible, is a matter of what is visible (R137). -/
theorem triggerSweep_visible_congr {s t : State} (h : s.visible = t.visible) :
    (triggerSweep s).visible = (triggerSweep t).visible := by
  have part : s.part = t.part := (congrArg State.part h :)
  have rs : s.rs = t.rs := (congrArg State.rs h :)
  have rs' : s.visible.rs = t.visible.rs := rs
  rw [triggerSweep_visible, triggerSweep_visible, part, rs, rs', h]

/-- The CLEAR_COUNTERS that wait are completed in the order they came, and then the sweep is triggered (log entry 16). -/
theorem closePollingRound_visible (s : State) : (closePollingRound s).visible = (triggerSweep { s with
    lc := { s.lc with inRound := false, clears := [] }
    rs := { s.rs with completions :=
      s.rs.completions ++ s.lc.clears.map (fun c => ⟨c.1, .ok, c.2, s.clock⟩) } }).visible :=
  triggerSweep_visible_congr (foldl_complete_visible ..)

/-- What a sweep trigger leaves of the Request Scanner in RUNNING (R137). -/
def Requests.triggered (r : Requests) : Requests :=
  { r with
    sweep := if r.sweep = .idle then .stateRead 0 else r.sweep
    scanPending := r.scanPending || r.sweep != .idle }

theorem triggerSweep_running {s : State} (hp : s.part = .running) :
    (triggerSweep s).visible = { s.visible with rs := s.rs.triggered } := by
  rw [triggerSweep_visible, if_pos hp, Requests.triggered]
  by_cases h : s.rs.sweep = .idle
  · rw [if_pos h, if_pos h, h]
    simp [State.visible]
  · rw [if_neg h, if_neg h, bne_iff_ne.2 h, Bool.or_true]
    rfl

/-! ### ROUND_START (R125) -/

theorem reachTime_of_reached {s : State} {due : BitVec 32} (h : ahead s.clock due = 0) : reachTime due s = s := by
  unfold reachTime
  rw [h]
  simp

theorem isNextDue_of_reached {s : State} {due : BitVec 32} (h : ahead s.clock due = 0) : s.isNextDue due = true := by
  simp [State.isNextDue, h]

theorem exec_roundStart {s : State} (hp : s.part = .census ∨ s.part = .running) (hr : s.lc.inRound = false)
    (hd : s.isNextDue s.lc.due = true) : exec .roundStart s = finish s (openRound (reachTime s.lc.due s)) :=
  if_pos ⟨hp, hr, hd⟩

/-- The round that is due at once is the one that ROUND_START starts (R125). -/
theorem openRound_eq_roundStart {s : State} (hp : s.part = .census ∨ s.part = .running) (hr : s.lc.inRound = false)
    (hd : ahead s.clock s.lc.due = 0) {v : State} (hv : exec .roundStart s = .next v) :
    (openRound s).visible = v.visible := by
  rw [exec_roundStart hp hr (isNextDue_of_reached hd), reachTime_of_reached hd] at hv
  exact (finish_visible hv).symm

theorem openRound_running {s : State} (hp : s.part = .running) : openRound s = openPollingRound s := by
  rw [openRound, if_neg (by rw [hp]; decide), if_pos hp]

theorem openRound_census {s : State} (hp : s.part = .census) : openRound s = openCensusRound s := if_pos hp

/-- A round in RUNNING as it starts: its number, its due time (R124, R125; log entry 26). -/
def State.roundOpened (s : State) : State := { s with lc := { s.lc with
  round := s.lc.round + 1, inRound := true, due := s.after s.desc.header.roundPeriod } }

@[simp] theorem roundOpened_same {ps : List Part} {s t : State} (h : [Part.lc] ⊆ ps) :
    Same ps s t.roundOpened ↔ Same ps s t := same_lc h _

theorem openPollingRound_eq (s : State) : openPollingRound s =
    match s.roundOpened.nextBoard 0 with
    | some i => beginExchange i s.roundOpened
    | none => closePollingRound s.roundOpened := rfl

theorem openPollingRound_some {s : State} {i : Fin 16} (h : s.roundOpened.nextBoard 0 = some i) :
    openPollingRound s = beginExchange i s.roundOpened := by
  rw [openPollingRound_eq, h]

theorem openPollingRound_none {s : State} (h : s.roundOpened.nextBoard 0 = none) :
    openPollingRound s = closePollingRound s.roundOpened := by
  rw [openPollingRound_eq, h]

/-- The end of a round leaves of the Link Controller no round and no CLEAR_COUNTERS to complete. -/
theorem closePollingRound_lc (s : State) :
    (closePollingRound s).lc = { s.lc with inRound := false, clears := [] } := by
  have h : Same [.rs, .port] ({ s with lc := { s.lc with inRound := false, clears := [] } } : State)
      (closePollingRound s) := by
    simp only [closePollingRound, triggerSweep_same, List.Subset.refl]
    exact foldl_same _ (fun t c => by simp) _ _
  exact (h.get .lc).symm

/-- A round that starts has its number and its due time, whether or not it addresses a board (R124, R125). -/
theorem openPollingRound_times (s : State) : (openPollingRound s).clock = s.clock ∧
    (openPollingRound s).lc.round = s.lc.round + 1 ∧
    (openPollingRound s).lc.due = s.after s.desc.header.roundPeriod := by
  have same : Same [.lc, .rs, .port] s (openPollingRound s) := by simp
  refine ⟨(same.get .clock).symm, ?_⟩
  cases h : s.roundOpened.nextBoard 0 with
  | some i =>
    rw [openPollingRound_some h, beginExchange_eq]
    exact ⟨rfl, rfl⟩
  | none =>
    rw [openPollingRound_none h, closePollingRound_lc]
    exact ⟨rfl, rfl⟩

/-- A round in RUNNING that is silent to every board ends at its start (R125, R133, R137). -/
theorem openPollingRound_silent {s : State} (hp : s.part = .running) (h : ∀ i, s.silent (s.lc.round + 1) i) :
    (openPollingRound s).visible = ({ s with
      lc := { s.roundOpened.lc with inRound := false, clears := [] }
      rs := Requests.triggered { s.rs with completions :=
        s.rs.completions ++ s.lc.clears.map (fun c => ⟨c.1, .ok, c.2, s.clock⟩) } } : State).visible := by
  have none_left : s.roundOpened.nextBoard 0 = none := nextBoard_running_none hp fun j _ => h j
  rw [openPollingRound_none none_left, closePollingRound_visible]
  exact triggerSweep_running hp

theorem openPollingRound_called {s : State} {i : Fin 16} (hp : s.part = .running)
    (below : ∀ j < i, s.silent (s.lc.round + 1) j) (called : ¬ s.silent (s.lc.round + 1) i) :
    openPollingRound s = beginExchange i s.roundOpened :=
  openPollingRound_some (nextBoard_running (s := s.roundOpened) hp (Nat.zero_le _) called fun j _ hlt => below j hlt)

/-- A round in CENSUS sends the first described board that is UNKNOWN a CENSUS (R123, R125). -/
theorem openCensusRound_called {s : State} {i : Fin 16} (hp : s.part = .census) (hk : (s.desc.board i).kind ≠ .none)
    (hu : s.lc.boards[i].state = .unknown)
    (below : ∀ j < i, (s.desc.board j).kind = .none ∨ s.lc.boards[j].state ≠ .unknown) :
    openCensusRound s = { s with lc := { s.lc with
      inRound := true, due := s.after s.desc.header.roundPeriod, exchange := .sending i .census } } := by
  unfold openCensusRound openRoundWith
  dsimp only
  generalize hr : ({ s with lc := { s.lc with inRound := true, due := s.after s.desc.header.roundPeriod } } : State) = r
  have hpr : r.part = .census := hr ▸ hp
  have first : r.nextBoard 0 = some i := by
    subst hr
    exact nextBoard_census hp (Nat.zero_le _) hk hu fun j _ hlt => below j hlt
  have request : r.roundRequest i = .census := by
    rw [roundRequest_census hpr, if_pos]
    subst hr
    exact ⟨hk, hu⟩
  rw [first]
  show beginExchange i r = _
  rw [beginExchange_census request, ← hr]

/-! ### What is visible of the Link Controller -/

theorem link_of_visible {s t : State} (h : s.visible = t.visible) :
    s.lc.boards = t.lc.boards ∧ s.lc.exchange = t.lc.exchange ∧ s.lc.inRound = t.lc.inRound ∧
    s.lc.round = t.lc.round ∧ s.lc.due = t.lc.due ∧ s.lc.clears = t.lc.clears ∧ s.lc.draining = t.lc.draining :=
  ⟨(congrArg (fun x => x.lc.boards) h :), (congrArg (fun x => x.lc.exchange) h :), (congrArg (fun x => x.lc.inRound) h :),
    (congrArg (fun x => x.lc.round) h :), (congrArg (fun x => x.lc.due) h :), (congrArg (fun x => x.lc.clears) h :),
    (congrArg (fun x => x.lc.draining) h :)⟩

theorem PollSent.of_visible {s u t : State} {i : Fin 16} (h : PollSent s u i) (hv : t.visible = u.visible) :
    PollSent s t i := by
  obtain ⟨toggle, commands, frame, boards, exchange⟩ := h
  obtain ⟨tboards, texchange, -⟩ := link_of_visible hv
  exact ⟨toggle, commands, frame, tboards.trans boards, texchange.trans exchange⟩

/-! ### ROUND_START in RUNNING and in CENSUS -/

section
variable {s : State} {now : BitVec 32} (hr : s.lc.inRound = false) (hd : s.isNextDue s.lc.due = true)
  (hnow : now = s.clock + BitVec.ofNat 32 (ahead s.clock s.lc.due))
include hr hd hnow

theorem roundStart_running (hp : s.part = .running) :
    ∃ t, exec .roundStart s = .next t ∧ t.visible = (openPollingRound { s with clock := now }).visible := by
  obtain ⟨t, ht, hv⟩ := finish_completes s (openRound (reachTime s.lc.due s))
  refine ⟨t, (exec_roundStart (.inr hp) hr hd).trans ht, ?_⟩
  rw [hv, hnow]
  exact congrArg State.visible (openRound_running (s := reachTime s.lc.due s) hp)

theorem roundStart_census (hp : s.part = .census) :
    ∃ t, exec .roundStart s = .next t ∧ t.visible = (openCensusRound { s with clock := now }).visible := by
  obtain ⟨t, ht, hv⟩ := finish_completes s (openRound (reachTime s.lc.due s))
  refine ⟨t, (exec_roundStart (.inl hp) hr hd).trans ht, ?_⟩
  rw [hv, hnow]
  exact congrArg State.visible (openRound_census (s := reachTime s.lc.due s) hp)

end

/-! ### The pass to the next board (R124, R125) -/

theorem passOn_some {s : State} {i j : Fin 16} (h : s.nextBoard (i.val + 1) = some j) : passOn i s = beginExchange j s := by
  rw [passOn, h]

theorem passOn_none {s : State} {i : Fin 16} (h : s.nextBoard (i.val + 1) = none) : passOn i s = closeRound s := by
  rw [passOn, h]

theorem closeRound_eq {s x : State} (hclose : x = if s.part = .census then closeCensusRound s
      else if s.part = .running then closePollingRound s else s) :
    closeRound s = if x.lc.inRound = false ∧ ahead x.clock x.lc.due = 0 then openRound x else x := by
  rw [hclose]
  rfl

/-- The end of a round, by whether the next is due already (R125). -/
theorem closeRound_spec {s x : State} (hclose : x = if s.part = .census then closeCensusRound s
      else if s.part = .running then closePollingRound s else s)
    (hx : x.part = .census ∨ x.part = .running) :
    (x.lc.inRound = true ∨ ahead x.clock x.lc.due ≠ 0 → closeRound s = x) ∧
    (x.lc.inRound = false → ahead x.clock x.lc.due = 0 →
      ∀ v, exec .roundStart x = .next v → (closeRound s).visible = v.visible) := by
  rw [closeRound_eq hclose]
  refine ⟨fun h => if_neg fun due => ?_, fun hin hd v hv => ?_⟩
  · rw [due.1] at h
    exact h.elim (by decide) (fun k => k due.2)
  · rw [if_pos ⟨hin, hd⟩]
    exact openRound_eq_roundStart hx hin hd hv

/-- The end of a census round leaves the part in CENSUS, or enters RUNNING (R123, R156). -/
theorem closeCensusRound_part {s : State} (hp : s.part = .census) :
    (closeCensusRound s).part = .census ∨ (closeCensusRound s).part = .running := by
  have entered : ∀ u : State, (enterRunning u).part = .running := fun u => by
    have same : Same [.lc, .rs, .ce, .sq, .port] (changePart .running (journal u.startedEntry (zeroClock u)))
        (enterRunning u) := by simp [enterRunning]
    exact (same.get .part).symm
  unfold closeCensusRound
  dsimp only
  split
  · exact .inl hp
  · exact .inr (entered _)

/-! ### REQUEST_FRAME_SENT (R119, R121, R135) -/

/-- The last byte of a frame to this board has left: its reply window opens, or, where it is the end of an exchange ended
before, no window does (R119, R135). -/
def State.frameLeft (s : State) (i : Fin 16) (frame : LinkFrame) (rest : List (Fin 16 × LinkFrame)) : State :=
  { s with lc := { s.lc with
    draining := rest, exchange := if s.lc.draining = [] then .window i frame else s.lc.exchange } }

/-- The frame on the line: the oldest of those whose exchanges were ended, or that of the exchange (log entry 21). -/
theorem requestFrameSent_spec {s : State} {i : Fin 16} {frame : LinkFrame} {rest : List (Fin 16 × LinkFrame)}
    (h : (s.lc.draining = [] ∧ rest = [] ∧ s.lc.exchange = .sending i frame) ∨ s.lc.draining = (i, frame) :: rest)
    (received : Bool) : ∃ t, exec (.requestFrameSent received) s = .next t ∧
      t.visible = (deliver received i frame (s.frameLeft i frame rest)).visible := by
  obtain ⟨t, ht, hv⟩ := finish_completes s (deliver received i frame (s.frameLeft i frame rest))
  refine ⟨t, .trans ?_ ht, hv⟩
  show execRequestFrameSent received s = _
  unfold execRequestFrameSent State.frameLeft
  obtain ⟨none_drains, rfl, sending⟩ | drains := h
  · rw [none_drains, if_pos rfl, sending]
    dsimp only
    rw [← none_drains]
  · rw [drains, if_neg (List.cons_ne_nil _ _)]

/-- A frame reaches the board it is addressed to, or no board. -/
theorem deliver_line (received : Bool) (i : Fin 16) (frame : LinkFrame) (s : State) :
    (∀ j : Fin 16, j ≠ i ∨ received = false → (deliver received i frame s).line[j] = s.line[j]) ∧
    (received = true → (deliver received i frame s).line[i] = s.line[i].receive frame) := by
  cases received with
  | false => exact ⟨fun _ _ => rfl, fun h => by cases h⟩
  | true =>
    refine ⟨fun j h => ?_, fun _ => Vector.getElem_set_self i.isLt⟩
    have other : j ≠ i := h.resolve_right (by decide)
    exact Vector.getElem_set_ne i.isLt j.isLt fun e => other (Fin.ext e.symm)

theorem deliver_lc (received : Bool) (i : Fin 16) (frame : LinkFrame) (s : State) :
    (deliver received i frame s).lc = s.lc :=
  (Same.get (ps := [.line]) (by simp) .lc : s.lc = _).symm

/-! ### The settled statement -/

/-- Settles O53: the pass goes to the first board the round is not silent to (`nextBoard_running`, `nextBoard_census`),
whose request is `beginExchange_running`; where none is left, the round ends as `closePollingRound_visible` says, and the
next follows where it is due (`closeRound_spec`). -/
theorem roundsAndFrames : Obligations.RoundsAndFrames := by
  refine ⟨fun s now hr hd hnow => ⟨fun hp => ?_, fun hp i hk hu below => ?_⟩, fun s t i ht => ⟨fun hp => ⟨?_, ?_⟩,
    fun hp => ⟨?_, ?_⟩⟩, fun s i frame received rest h => ?_⟩
  · obtain ⟨t, ht, hv⟩ := roundStart_running hr hd hnow hp
    obtain ⟨clock, round, due⟩ := openPollingRound_times { s with clock := now }
    obtain ⟨boards, exchange, inRound, tround, tdue, clears, -⟩ := link_of_visible hv
    refine ⟨t, ht, .trans (congrArg State.clock hv :) clock, tround.trans round, tdue.trans due,
      fun i below called => ?_, fun silent => ?_⟩
    · have opened := openPollingRound_called (s := { s with clock := now }) hp below called
      have same : Same [.clock, .lc] s (beginExchange i ({ s with clock := now } : State).roundOpened) := by simp
      obtain ⟨poll, census⟩ := beginExchange_running (s := ({ s with clock := now } : State).roundOpened) hp called
      rw [opened] at hv boards exchange inRound
      refine ⟨inRound.trans ?_, hv ▸ same.to_visible, fun takes => (poll takes).of_visible hv, fun np ns => ?_⟩
      · rw [beginExchange_eq]
        rfl
      · exact ⟨boards.trans (census np ns).1, exchange.trans (census np ns).2⟩
    · have same : Same [.clock, .lc, .rs, .port] s (openPollingRound { s with clock := now }) := by simp
      have others := hv ▸ same.to_visible (ps := [.clock, .lc, .rs])
      rw [openPollingRound_silent (s := { s with clock := now }) hp silent] at hv
      obtain ⟨boards, exchange, inRound, -, -, clears, -⟩ := link_of_visible hv
      have rs := (congrArg State.rs hv :)
      refine ⟨inRound, boards, exchange, clears, (congrArg Requests.completions rs :), (congrArg Requests.sweep rs :),
        (congrArg Requests.scanPending rs :), others⟩
  · obtain ⟨t, ht, hv⟩ := roundStart_census hr hd hnow hp
    have opened := openCensusRound_called (s := { s with clock := now }) hp hk hu below
    have same : Same [.clock, .lc] s (openCensusRound { s with clock := now }) := by
      rw [opened]
      exact (same_lc (t := { s with clock := now }) (by decide) _).2 (by simp)
    have others := hv ▸ same.to_visible (ps := [.clock, .lc])
    rw [opened] at hv
    obtain ⟨boards, exchange, inRound, -, due, -⟩ := link_of_visible hv
    refine ⟨t, ht, (congrArg State.clock hv :), inRound, exchange, boards, due, others⟩
  · intro j hj below called
    rw [passOn_some (nextBoard_running hp hj called below)] at ht
    subst ht
    exact ⟨beginExchange_eq j s, beginExchange_running hp called⟩
  · intro silent
    rw [passOn_none (nextBoard_running_none hp silent)] at ht
    have ends : closePollingRound s = if s.part = .census then closeCensusRound s
        else if s.part = .running then closePollingRound s else s := by
      rw [if_neg (by rw [hp]; decide), if_pos hp]
    have same : Same [.lc, .rs, .port] s (closePollingRound s) := by simp
    have part : s.part = (closePollingRound s).part := same.get .part
    have clock : (closePollingRound s).clock = s.clock := (same.get .clock).symm
    obtain ⟨later, atOnce⟩ := closeRound_spec ends (.inr (part.symm.trans hp))
    rw [closePollingRound_lc, clock, ← ht] at later atOnce
    exact ⟨_, closePollingRound_visible s, fun h => later (.inr h), atOnce rfl⟩
  · intro j hj below hk hu
    have called : s.roundRequest j = .census := by rw [roundRequest_census hp, if_pos ⟨hk, hu⟩]
    rw [ht, passOn_some (nextBoard_census hp hj hk hu below), beginExchange_census called]
  · intro silent
    rw [passOn_none (nextBoard_census_none hp silent)] at ht
    have ends : closeCensusRound s = if s.part = .census then closeCensusRound s
        else if s.part = .running then closePollingRound s else s := (if_pos hp).symm
    exact ⟨_, rfl, ht ▸ closeRound_spec ends (closeCensusRound_part hp)⟩
  · obtain ⟨t, ht, hv⟩ := requestFrameSent_spec h received
    have line : t.line = (deliver received i frame (s.frameLeft i frame rest)).line := (congrArg State.line hv :)
    obtain ⟨boards, exchange, -, -, -, -, draining⟩ := link_of_visible hv
    rw [deliver_lc] at boards exchange draining
    obtain ⟨others, addressed⟩ := deliver_line received i frame (s.frameLeft i frame rest)
    rw [← line] at others addressed
    have same : Same [.lc, .line] s (deliver received i frame (s.frameLeft i frame rest)) := by simp [State.frameLeft]
    refine ⟨t, ht, hv ▸ same.to_visible, draining, boards, fun e => exchange.trans (if_pos e),
      fun e => exchange.trans (if_neg e), others, fun got => ⟨?_, ?_, ?_⟩⟩
    · rintro rfl
      exact addressed got
    · rintro toggle commands lamps rfl
      exact addressed got
    · rintro toggle bits rfl
      exact addressed got

end Sys2Proof.Machine

/-! ## What the other blocks, and the pass of a round, leave of the Link Controller (R103, R124, R129, R134) -/

namespace Sys2Proof.Machine

/-- A board as the Link Controller holds it, but for what dispatch and the requests of a round change: the outgoing list
and the open frame (R127, R129). -/
def BoardLink.standing (b : BoardLink) : BoardLink := { b with outgoing := [], openFrame := none }

/-- From `s` to `t` the Link Controller has been touched by dispatch, marks and the pass of a round at most: every board
stands, the record for BRD stands, and the mirror group has been marked stale at most (R134). -/
structure LinkStands (s t : State) : Prop where
  changed : t.lc.changed = s.lc.changed
  mirror : t.lc.mirror = { s.lc.mirror with stale := t.lc.mirror.stale }
  stale : s.lc.mirror.stale = true → t.lc.mirror.stale = true
  board : ∀ j : Fin 16, t.lc.boards[j].standing = s.lc.boards[j].standing

theorem LinkStands.of_lc {s t : State} (h : t.lc = s.lc) : LinkStands s t := by
  refine ⟨?_, ?_, fun k => ?_, fun j => ?_⟩ <;> rw [h]
  exact k

theorem LinkStands.of_same {ps : List Part} {s t : State} (h : Same ps s t) (hlc : Part.lc ∉ ps := by decide) :
    LinkStands s t := .of_lc (h.get .lc hlc).symm

theorem LinkStands.refl (s : State) : LinkStands s s := .of_lc rfl

theorem LinkStands.trans {s t u : State} (h : LinkStands s t) (k : LinkStands t u) : LinkStands s u where
  changed := k.changed.trans h.changed
  mirror := k.mirror.trans (by rw [h.mirror])
  stale := k.stale ∘ h.stale
  board j := (k.board j).trans (h.board j)

theorem LinkStands.foldl {α : Type} {f : State → α → State} (h : ∀ s a, LinkStands s (f s a)) (l : List α) (s : State) :
    LinkStands s (l.foldl f s) := by
  induction l generalizing s with
  | nil => exact .refl s
  | cons a l ih => exact (h s a).trans (ih _)

/-! ### Dispatch, marks and moves (R101, R103) -/

theorem joinOutgoing_standing (boards : Vector BoardLink 16) (i j : Fin 16) (c : CoilCommand) :
    (joinOutgoing boards i c)[j].standing = boards[j].standing := by
  by_cases h : i = j
  · subst h
    rw [joinOutgoing, Fin.getElem_fin, Vector.getElem_set_self]
    rfl
  · rw [joinOutgoing, Fin.getElem_fin, Vector.getElem_set_ne _ _ fun e => h (Fin.ext e)]
    rfl

theorem dispatchQueue_standing (d : Desc) (q : List MotionEntry) (a : Dispatch) (j : Fin 16) :
    (dispatchQueue d a q).1.boards[j].standing = a.boards[j].standing := by
  induction q generalizing a with
  | nil => rfl
  | cons e q ih =>
    unfold dispatchQueue
    split
    · split
      · exact (ih _).trans (joinOutgoing_standing ..)
      · rfl
    · exact ih a

theorem examineDispatch_stands (s : State) : LinkStands s (examineDispatch s) := by
  unfold examineDispatch
  split
  · exact ⟨rfl, rfl, id, dispatchQueue_standing _ _ _⟩
  · exact .refl s

/-- What dispatch makes of a state whose Link Controller stood. -/
theorem LinkStands.examined {s u : State} (h : u.lc = s.lc) : LinkStands s (examineDispatch u) :=
  (LinkStands.of_lc h).trans (examineDispatch_stands u)

theorem markStale_stands (before s : State) : LinkStands s (markStale before s) where
  changed := rfl
  mirror := rfl
  stale h := by simp [markStale, Mirror.mark, h]
  board _ := rfl

theorem LinkStands.markMotion {s u : State} (h : LinkStands s u) : LinkStands s (markMotion u) := h.trans (.of_lc rfl)

theorem LinkStands.markImages {s u : State} (h : LinkStands s u) : LinkStands s (markImages u) := h.trans (.of_lc rfl)

theorem enqueueMoves_stands (moved : StopImage) (s : State) : LinkStands s (enqueueMoves moved s) := by
  unfold enqueueMoves
  exact .examined rfl

theorem applyChangeSet_stands (c : ChangeSet) (s : State) : LinkStands s (applyChangeSet c s) := by
  unfold applyChangeSet
  refine (LinkStands.of_lc ?_).trans (enqueueMoves_stands _ _)
  rfl

theorem handMove_stands (stop : Nat) (closed : Bool) (s : State) : LinkStands s (handMove stop closed s) := by
  refine LinkStands.trans (t := setContactBit stop closed s) (.of_lc rfl) ?_
  unfold handMove
  generalize setContactBit stop closed s = u
  dsimp only
  split
  · exact .of_lc rfl
  · split
    · split
      · exact .examined rfl
      · exact .of_lc rfl
    · exact .refl u

theorem startPulses_stands (commands : List CoilCommand) (s : State) : LinkStands s (startPulses commands s) :=
  (LinkStands.foldl (f := startPulse) (fun _ _ => .of_lc rfl) commands s).trans (examineDispatch_stands _)

theorem loseBoard_stands (i : Fin 16) (s : State) : LinkStands s (loseBoard i s) := by
  unfold loseBoard
  exact .markMotion (.examined rfl)

theorem losing_stands (i : Fin 16) (s : State) : LinkStands s (s.losing i) := by
  have lost : LinkStands s (if (s.desc.board i).kind = .jamb then loseBoard i s else s) := by
    split
    · exact loseBoard_stands i s
    · exact .refl s
  unfold State.losing
  dsimp only
  split
  · exact lost.trans (.of_lc rfl)
  · exact lost

theorem resynchronise_stands (i : Fin 16) (s : State) : LinkStands s (resynchronise i s) := by
  unfold resynchronise
  exact .markImages (.examined rfl)

theorem regainBoard_stands (i : Fin 16) (s : State) : LinkStands s (regainBoard i s) := by
  unfold regainBoard
  refine .markMotion (LinkStands.trans (.of_lc ?_) ?_ (t := { s with ms := { s.ms with
    unreachable := s.ms.unreachable &&& ~~~s.desc.stopsOnBoard i } }))
  · rfl
  · split
    · exact resynchronise_stands ..
    · exact .of_lc rfl

/-! ### Actions and presses (R45, R93) -/

/-- An action that ends at one event: its entry and its result leave the Link Controller. -/
theorem LinkStands.answered {s u : State} (h : LinkStands s u) (cell : Option Nat) (r : RequestResult) (v : Nat)
    (e : JournalEntry) : LinkStands s (completeIf cell r v (journal e u)) :=
  h.trans (.of_same (ps := [.jw, .rs, .port]) (by simp))

theorem setStop_stands (a : Action) (stop : Nat) (bit : Bool) (s : State) : LinkStands s (setStop a stop bit s) := by
  unfold setStop
  split
  · exact .answered (.refl s) ..
  · exact .answered (applyChangeSet_stands _ s) ..

theorem performAction_stands (a : Action) (s : State) : LinkStands s (performAction a s) := by
  unfold performAction
  split
  · exact .of_same (ps := [.ce, .port]) (by simp)
  · exact .of_same (ps := [.ce, .jw, .rs, .port]) (by simp)
  · have pushed : Same [.ce, .port] s (pushUndo s) := by simp
    exact .answered ((LinkStands.of_same pushed).trans (applyChangeSet_stands ..)) ..
  · exact .of_same (ps := [.ce, .ru, .jw, .rs, .port]) (by simp)
  · exact .of_same (ps := [.ce, .jw, .rs, .port]) (by simp)
  · exact setStop_stands ..
  · exact setStop_stands ..
  · unfold undoAction
    split
    · exact .answered (.refl s) ..
    · rename_i rest _
      have popped : Same [.ce, .port] s (setUndo rest s) := by simp
      exact .answered ((LinkStands.of_same popped).trans (applyChangeSet_stands ..)) ..

theorem takeUpTo_stands (n : Nat) (s : State) : LinkStands s (takeUpTo n s) := by
  induction n generalizing s with
  | zero => exact .refl s
  | succ n ih =>
    unfold takeUpTo
    split
    · have dropped : Same [.ce, .port] s (dropHead s) := by simp
      exact (((LinkStands.of_same dropped).trans (performAction_stands _ _)).trans (markStale_stands _ _)).trans (ih _)
    · exact .refl s

theorem offerAction_stands (a : Action) (s : State) : LinkStands s (offerAction a s) :=
  (LinkStands.of_same (ps := [.ce, .jw, .rs, .port]) (by simp)).trans (takeUpTo_stands ..)

theorem pressContact_stands (held : Bool) (role : ContactRole) (s : State) : LinkStands s (pressContact held role s) := by
  unfold pressContact
  split
  · exact .refl s
  · exact offerAction_stands ..
  · unfold pressPiston
    dsimp only
    split
    case h_4 => exact .refl s
    case h_5 | h_6 => exact .of_same (ps := [.sq, .jw, .rs, .port]) (by simp)
    case h_7 | h_8 => exact .of_same (ps := [.ce, .jw, .port]) (by simp)
    all_goals exact offerAction_stands ..

theorem contactSample_stands (i : Fin 16) (levels : BitVec 64) (s : State) :
    LinkStands s (contactSample i levels s) := by
  rw [contactSample_eq]
  have debounced : LinkStands s (s.debounced i levels) := .of_lc rfl
  have moved := LinkStands.foldl (fun u (m : Nat × Bool) => handMove_stands m.1 m.2 u) (s.sampleMoves i levels)
  have pressed := LinkStands.foldl (fun u r => pressContact_stands (s.debounced i levels).setHeld r u)
  exact (debounced.trans (moved _)).trans (pressed _ _)

/-! ### The pass of a round (R124, R125, R156) -/

theorem beginExchange_stands (i : Fin 16) (s : State) : LinkStands s (beginExchange i s) := by
  unfold beginExchange
  split
  · exact ⟨rfl, rfl, id, fun _ => rfl⟩
  · refine ⟨rfl, rfl, id, fun j => ?_⟩
    by_cases h : i = j
    · subst h
      rw [updateBoard, Fin.getElem_fin, Vector.getElem_set_self]
      rfl
    · rw [updateBoard, Fin.getElem_fin, Vector.getElem_set_ne _ _ fun e => h (Fin.ext e)]
      rfl

/-- What sets the round's own values alone leaves the rest of the Link Controller. -/
theorem LinkStands.of_round {s t : State} (boards : t.lc.boards = s.lc.boards) (changed : t.lc.changed = s.lc.changed)
    (mirror : t.lc.mirror = s.lc.mirror) : LinkStands s t :=
  ⟨changed, by rw [mirror], fun h => by rw [mirror, h], fun j => by rw [boards]⟩

theorem closePollingRound_stands (s : State) : LinkStands s (closePollingRound s) := by
  have h := closePollingRound_lc s
  exact .of_round (by rw [h]) (by rw [h]) (by rw [h])

theorem openRoundWith_stands {close : State → State} (h : ∀ s, LinkStands s (close s)) (s : State) :
    LinkStands s (openRoundWith close s) := by
  have opened : LinkStands s { s with lc := { s.lc with inRound := true, due := s.after s.desc.header.roundPeriod } } :=
    .of_round rfl rfl rfl
  unfold openRoundWith
  dsimp only
  split
  · exact opened.trans (beginExchange_stands ..)
  · exact opened.trans (h _)

theorem openPollingRound_stands (s : State) : LinkStands s (openPollingRound s) :=
  LinkStands.trans (t := { s with lc := { s.lc with round := s.lc.round + 1 } }) (.of_round rfl rfl rfl)
    (openRoundWith_stands closePollingRound_stands _)

theorem enterRunning_stands (s : State) : LinkStands s (enterRunning s) := by
  have started : Same [.clock, .clockZeroed, .jw, .port, .part, .cause] s
      (changePart .running (journal s.startedEntry (zeroClock s))) := by simp
  have ended : ∀ u, Same [.ce, .sq, .rs, .port] u (completeReload .ok (takeSteps (readRunningTutti u))) := fun u => by simp
  have renumbered : ∀ u, LinkStands u (restartRounds u) := fun u => .of_round rfl rfl rfl
  exact (((LinkStands.of_same started).trans (renumbered _)).trans (openPollingRound_stands _)).trans (.of_same (ended _))

theorem closeCensusRound_stands (s : State) : LinkStands s (closeCensusRound s) := by
  unfold closeCensusRound
  dsimp only
  refine LinkStands.trans (t := { s with lc := { s.lc with inRound := false } }) (.of_round rfl rfl rfl) ?_
  split
  · exact .refl _
  · exact enterRunning_stands _

theorem openRound_stands (s : State) : LinkStands s (openRound s) := by
  unfold openRound
  split
  · exact openRoundWith_stands closeCensusRound_stands s
  · split
    · exact openPollingRound_stands s
    · exact .refl s

theorem closeRound_stands (s : State) : LinkStands s (closeRound s) := by
  generalize hx : (if s.part = .census then closeCensusRound s
      else if s.part = .running then closePollingRound s else s) = x
  have closed : LinkStands s x := by
    subst hx
    split
    · exact closeCensusRound_stands s
    · split
      · exact closePollingRound_stands s
      · exact .refl s
  rw [closeRound_eq hx.symm]
  split
  · exact closed.trans (openRound_stands _)
  · exact closed

theorem passOn_stands (i : Fin 16) (s : State) : LinkStands s (passOn i s) := by
  unfold passOn
  split
  · exact beginExchange_stands ..
  · exact closeRound_stands s

end Sys2Proof.Machine

/-! ## How an exchange ends (R106, R122, R123, R126, R128, R129, R131 to R134) -/

namespace Sys2Proof.Machine

/-! ### The line is left idle, and the board's values are set -/

/-- From `s` to `u` the exchange with a board is over and the Link Controller holds these values for the board; of the
bookkeeping of the link group the stale mark alone may differ. -/
structure ExchangeOver (s : State) (i : Fin 16) (b : BoardLink) (u : State) : Prop where
  visible : u.visible = (s.exchanged i b).visible
  mirror : u.lc.mirror = { s.lc.mirror with stale := u.lc.mirror.stale }

theorem updateBoard_exchanged (s : State) (i : Fin 16) (b : BoardLink) (f : BoardLink → BoardLink) :
    updateBoard i f (s.exchanged i b) = s.exchanged i (f b) := by
  unfold updateBoard State.exchanged
  simp

theorem ExchangeOver.of_idle {s : State} (i : Fin 16) (h : s.lc.exchange = .idle) :
    ExchangeOver s i s.lc.boards[i] s := by
  refine ⟨?_, rfl⟩
  unfold State.exchanged
  rw [← h]
  simp

theorem idleLine_over (s : State) (i : Fin 16) : ExchangeOver s i s.lc.boards[i] (idleLine s) :=
  ⟨(ExchangeOver.of_idle (s := idleLine s) i rfl).visible, rfl⟩

section
variable {s u : State} {i : Fin 16} {b : BoardLink} (h : ExchangeOver s i b u)
include h

theorem ExchangeOver.board : u.lc.boards[i] = b := by
  obtain ⟨boards, -⟩ := link_of_visible h.visible
  rw [boards]
  exact Vector.getElem_set_self i.isLt

theorem ExchangeOver.update (f : BoardLink → BoardLink) : ExchangeOver s i (f b) (updateBoard i f u) := by
  refine ⟨?_, h.mirror⟩
  rw [← updateBoard_exchanged]
  exact congrArg (updateBoard i f) h.visible

theorem ExchangeOver.count (f : BoardLink → BoardLink) : ExchangeOver s i (f b) (increaseCounter i f u) := by
  refine ⟨(h.update f).visible, ?_⟩
  show ({ u.lc.mirror with stale := true } : Mirror _) = _
  rw [h.mirror]
  rfl

end

/-! ### A change of state (R132, R134) -/

/-- From `s` to `z` the exchange with a board is over with these values, the board's change of state is journaled and
recorded for BRD, and the link group is marked stale. -/
structure BoardChanged (s : State) (i : Fin 16) (b : BoardLink) (old new : BoardState) (z : State) : Prop where
  visible : z.visible = ((s.exchanged i b).withBoardEntry i old new).visible
  mirror : z.lc.mirror = { s.lc.mirror with stale := true }
  changed : z.lc.changed = true

/-- The BOARD entry of a change of state, its time not yet stamped (R132). -/
def State.boardEntry (s : State) (i : Fin 16) (old new : BoardState) : JournalEntry :=
  ⟨.board, .none, s.ce.level, 0xFF, i.val + 1, new.code + 256 * old.code, 0⟩

theorem withBoardEntry_eq (s : State) (i : Fin 16) (old new : BoardState) :
    s.withBoardEntry i old new = { s with jw := s.jw.handed (s.boardEntry i old new) s.clock } := by
  rw [State.withBoardEntry, journal_jw]
  rfl

/-- A state with the change of a board made, before its BOARD entry is handed over. -/
def boardSet (i : Fin 16) (new : BoardState) (s : State) : State :=
  let s₁ := updateBoard i (fun b => { b with state := new }) s
  { s₁ with lc := { s₁.lc with changed := true, mirror := { s₁.lc.mirror with stale := true } } }

theorem changeBoard_eq (i : Fin 16) (new : BoardState) (s : State) :
    changeBoard i new s = journal (s.boardEntry i s.lc.boards[i].state new) (boardSet i new s) := rfl

theorem changeBoard_lc (i : Fin 16) (new : BoardState) (s : State) : (changeBoard i new s).lc = (boardSet i new s).lc := by
  have entry : Same [.jw, .port] (boardSet i new s) (changeBoard i new s) := by simp [changeBoard_eq]
  exact (entry.get .lc).symm

theorem ExchangeOver.change {s u : State} {i : Fin 16} {b : BoardLink} {old : BoardState} (h : ExchangeOver s i b u)
    (hold : b.state = old) (new : BoardState) :
    BoardChanged s i { b with state := new } old new (changeBoard i new u) := by
  have set_visible : (boardSet i new u).visible = (s.exchanged i { b with state := new }).visible :=
    (h.update fun b => { b with state := new }).visible
  have entry : u.boardEntry i u.lc.boards[i].state new = s.boardEntry i old new := by
    have level : u.ce.level = s.ce.level := (congrArg (fun x => x.ce.level) h.visible :)
    rw [h.board, hold, State.boardEntry, level]
    rfl
  refine ⟨?_, ?_, ?_⟩
  · rw [changeBoard_eq, journal_visible, withBoardEntry_eq, set_visible, entry]
    rfl
  · rw [changeBoard_lc]
    show ({ u.lc.mirror with stale := true } : Mirror _) = _
    rw [h.mirror]
  · rw [changeBoard_lc]
    rfl

theorem BoardChanged.update {s z : State} {i : Fin 16} {b : BoardLink} {old new : BoardState}
    (h : BoardChanged s i b old new z) (f : BoardLink → BoardLink) :
    BoardChanged s i (f b) old new (updateBoard i f z) := by
  refine ⟨?_, h.mirror, h.changed⟩
  rw [withBoardEntry_eq, ← updateBoard_exchanged]
  refine (congrArg (updateBoard i f) h.visible).trans ?_
  rw [withBoardEntry_eq]
  rfl

theorem BoardChanged.board {s z : State} {i : Fin 16} {b : BoardLink} {old new : BoardState}
    (h : BoardChanged s i b old new z) : z.lc.boards[i] = b := by
  obtain ⟨boards, -⟩ := link_of_visible h.visible
  rw [boards]
  exact Vector.getElem_set_self i.isLt

/-- A board that becomes ABSENT or MISMATCH: what is handed on comes after its own values are set (R70, R113, R129). -/
theorem dropBoard_eq (i : Fin 16) (new : BoardState) (s : State) : dropBoard i new s =
    (updateBoard i (fun b => { b with outgoing := [], openFrame := none }) (changeBoard i new s)).losing i := by
  have entry : Same [.lc, .jw, .port] s
      (updateBoard i (fun b => { b with outgoing := [], openFrame := none }) (changeBoard i new s)) := by simp
  have dl : s.dl = _ := entry.get .dl
  unfold dropBoard State.losing State.desc Desc.isShoeBoard
  rw [dl]
  simp only [Bool.and_eq_true, beq_iff_eq]

theorem ExchangeOver.drop {s u : State} {i : Fin 16} {b : BoardLink} {old : BoardState} (h : ExchangeOver s i b u)
    (hold : b.state = old) (new : BoardState) : ∃ z, dropBoard i new u = z.losing i ∧
      BoardChanged s i { b with state := new, outgoing := [], openFrame := none } old new z :=
  ⟨_, dropBoard_eq i new u, (h.change hold new).update fun b => { b with outgoing := [], openFrame := none }⟩

/-! ### What the end of an exchange leaves in the Link Controller -/

/-- At `w` the exchange with a board has ended with these values of the board, its outgoing list and open frame apart; a
change of its state is recorded for BRD, and has marked the link group stale. -/
structure ExchangeEnded (s : State) (i : Fin 16) (b : BoardLink) (w : State) : Prop where
  mirror : w.lc.mirror = { s.lc.mirror with stale := w.lc.mirror.stale }
  board : w.lc.boards[i].standing = b.standing
  recorded : b.state ≠ s.lc.boards[i].state → w.lc.changed = true ∧ w.lc.mirror.stale = true

theorem ExchangeEnded.state {s w : State} {i : Fin 16} {b : BoardLink} (h : ExchangeEnded s i b w) :
    w.lc.boards[i].state = b.state := (congrArg BoardLink.state h.board :)

theorem ExchangeOver.ended {s u : State} {i : Fin 16} {b : BoardLink} (h : ExchangeOver s i b u)
    (hs : b.state = s.lc.boards[i].state) : ExchangeEnded s i b u :=
  ⟨h.mirror, congrArg _ h.board, fun k => absurd hs k⟩

theorem BoardChanged.ended {s z : State} {i : Fin 16} {b : BoardLink} {old new : BoardState}
    (h : BoardChanged s i b old new z) : ExchangeEnded s i b z :=
  ⟨by rw [h.mirror], congrArg _ h.board, fun _ => ⟨h.changed, by rw [h.mirror]⟩⟩

theorem ExchangeEnded.stands {s w t : State} {i : Fin 16} {b : BoardLink} (h : ExchangeEnded s i b w)
    (k : LinkStands w t) : ExchangeEnded s i b t :=
  ⟨k.mirror.trans (by rw [h.mirror]), (k.board i).trans h.board,
    fun hne => ⟨k.changed.trans (h.recorded hne).1, k.stale (h.recorded hne).2⟩⟩

/-! ### The end of the command (R134) -/

/-- A command that marks the link mirrors stale whatever changed: the update begins, or waits for the end of the one in
progress. -/
theorem finish_link_isMarked {before s t : State} (hr : s.inReset = false) (h : finish before s = .next t)
    {m : Mirror (List BoardValues)} (hm : s.lc.mirror = { m with stale := true }) :
    m.isMarked t.lc.mirror t.linkValues := by
  obtain ⟨begins, stands⟩ := finish_link (m := { m with stale := true }) hr h (by rw [hm]; rfl)
  refine ⟨fun hup hfull => (stands (by simp [Mirror.begins, hup, hfull])).1, fun hor => (begins ?_).1⟩
  obtain hup | hfull := hor
  · simp [Mirror.begins, hup]
  · exact Mirror.begins_of_full hfull

/-- A change of board state that a command has recorded waits for the next update, or is shown by the one that begins. -/
theorem boardChangeRecorded_of_finish {s u t : State} (h : finish s u = .next t) (hr : u.inReset = s.inReset)
    (hm : u.lc.mirror = { s.lc.mirror with stale := true }) (hc : u.lc.changed = true) : BoardChangeRecorded s t := by
  unfold BoardChangeRecorded
  cases reset : s.inReset with
  | true =>
    rw [finish_inReset (hr.trans reset)] at h
    cases h
    rw [if_pos (.inl rfl)]
    exact hc
  | false =>
    have marked : (markStale s u).lc.mirror = { s.lc.mirror with stale := true } := by simp [markStale, Mirror.mark, hm]
    have lc := (beginUpdates_lc (markStale s u)).1.trans (beginLinkUpdate_spec _).1
    rw [← next_eq_beginUpdates (hr.trans reset) h, marked] at lc
    by_cases waits : s.lc.mirror.updating = true ∧ s.lc.mirror.full = false
    · rw [if_neg (by simp [Mirror.begins, waits])] at lc
      rw [if_pos (.inr waits), lc]
      exact hc
    · have begins : ({ s.lc.mirror with stale := true } : Mirror (List BoardValues)).begins = true := by
        cases hup : s.lc.mirror.updating <;> cases hfull : s.lc.mirror.full <;> simp_all [Mirror.begins]
      rw [if_pos begins] at lc
      rw [if_neg (by simpa using waits), lc]
      exact hc

/-- The change of a board's state in an exchange that has ended is recorded once the command ends. -/
theorem ExchangeEnded.recorded_of_finish {s u t : State} {i : Fin 16} {b : BoardLink} (e : ExchangeEnded s i b u)
    (h : finish s u = .next t) (hr : u.inReset = s.inReset) (hb : b.state ≠ s.lc.boards[i].state) :
    BoardChangeRecorded s t := by
  obtain ⟨changed, stale⟩ := e.recorded hb
  exact boardChangeRecorded_of_finish h hr (by rw [e.mirror, stale]) changed

/-! ### A failed exchange (R122, R123, R126, R133) -/

theorem saturate_eq (n : Nat) : saturate n = min (n + 1) (max n 255) := by
  unfold saturate
  split <;> omega

section
variable {i : Fin 16} {u : State}

theorem pollFailed_present (h : u.lc.boards[i].state = .present) :
    pollFailed i u = changeBoard i .suspect (updateBoard i (fun b => { b with missRun := 1 }) u) := by
  rw [pollFailed, h]

theorem pollFailed_again (h : u.lc.boards[i].state = .suspect) (hrun : u.lc.boards[i].missRun + 1 < 3) :
    pollFailed i u = updateBoard i (fun b => { b with missRun := b.missRun + 1 }) u := by
  rw [pollFailed, h]
  exact if_neg (by omega)

theorem pollFailed_third (h : u.lc.boards[i].state = .suspect) (hrun : 3 ≤ u.lc.boards[i].missRun + 1) :
    pollFailed i u = dropBoard i .absent (updateBoard i (fun b => { b with missRun := b.missRun + 1 }) u) := by
  rw [pollFailed, h]
  exact if_pos hrun

theorem pollFailed_other (hp : u.lc.boards[i].state ≠ .present) (hs : u.lc.boards[i].state ≠ .suspect) :
    pollFailed i u = u := by
  unfold pollFailed
  split
  · exact absurd ‹_› hp
  · exact absurd ‹_› hs
  · rfl
  · rfl
  · rfl

theorem censusFailed_third (h : u.lc.boards[i].state = .unknown) (ha : 3 ≤ u.lc.boards[i].attempts + 1) :
    censusFailed i u = dropBoard i .absent (updateBoard i BoardLink.attempted u) := if_pos ⟨h, ha⟩

theorem censusFailed_other (h : ¬ (u.lc.boards[i].state = .unknown ∧ 3 ≤ u.lc.boards[i].attempts + 1)) :
    censusFailed i u = updateBoard i BoardLink.attempted u := if_neg h

end

theorem attempted_of_unknown {b : BoardLink} (h : b.state = .unknown) :
    b.attempted = { b with attempts := b.attempts + 1 } := if_pos h

theorem attempted_of_known {b : BoardLink} (h : b.state ≠ .unknown) : b.attempted = b := if_neg h

theorem attempted_eq (b : BoardLink) :
    b.attempted = { b with attempts := if b.state = .unknown then b.attempts + 1 else b.attempts } := by
  unfold BoardLink.attempted
  split <;> rfl

theorem attempted_state (b : BoardLink) : b.attempted.state = b.state := by
  unfold BoardLink.attempted
  split <;> rfl

/-- What a failed exchange leaves of the link group and of the counters and the toggle of its board. -/
structure FailureEnded (s : State) (i : Fin 16) (b : BoardLink) (w : State) : Prop where
  stale : w.lc.mirror.stale = true
  ended : ∃ b', ExchangeEnded s i b' w ∧ b'.misses = b.misses ∧ b'.bads = b.bads ∧ b'.toggle = b.toggle

section
variable {s u w : State} {i : Fin 16} {b b' : BoardLink} {old new : BoardState}

theorem FailureEnded.of_over (h : ExchangeOver s i b' w) (hm : w.lc.mirror.stale = true)
    (hs : b'.state = s.lc.boards[i].state)
    (hb : b'.misses = b.misses ∧ b'.bads = b.bads ∧ b'.toggle = b.toggle := by exact ⟨rfl, rfl, rfl⟩) :
    FailureEnded s i b w := ⟨hm, b', h.ended hs, hb⟩

theorem FailureEnded.of_changed (h : BoardChanged s i b' old new w)
    (hb : b'.misses = b.misses ∧ b'.bads = b.bads ∧ b'.toggle = b.toggle := by exact ⟨rfl, rfl, rfl⟩) :
    FailureEnded s i b w := ⟨by rw [h.mirror], b', h.ended, hb⟩

theorem FailureEnded.stands {t : State} (h : FailureEnded s i b w) (k : LinkStands w t) : FailureEnded s i b t := by
  obtain ⟨b', ended, counters⟩ := h.ended
  exact ⟨k.stale h.stale, b', ended.stands k, counters⟩

/-- The counters and the toggle of the board as they stand once the exchange has ended. -/
theorem FailureEnded.counters (h : FailureEnded s i b w) : w.lc.boards[i].misses = b.misses ∧
    w.lc.boards[i].bads = b.bads ∧ w.lc.boards[i].toggle = b.toggle := by
  obtain ⟨b', ended, misses, bads, toggle⟩ := h.ended
  have standing := ended.board
  exact ⟨.trans (congrArg BoardLink.misses standing :) misses, .trans (congrArg BoardLink.bads standing :) bads,
    .trans (congrArg BoardLink.toggle standing :) toggle⟩

variable (h : ExchangeOver s i b u) (hm : u.lc.mirror.stale = true) (hs : b.state = s.lc.boards[i].state)
include h hm hs

/-- A failed POLL exchange, by the state of its board (R122). -/
theorem pollFailed_ended : FailureEnded s i b (pollFailed i u) := by
  have board := h.board
  cases hb : b.state with
  | present =>
    rw [pollFailed_present (by rw [board, hb])]
    exact .of_changed ((h.update fun b => { b with missRun := 1 }).change rfl .suspect)
  | suspect =>
    by_cases hrun : b.missRun + 1 < 3
    · rw [pollFailed_again (by rw [board, hb]) (by rwa [board])]
      exact .of_over (h.update fun b => { b with missRun := b.missRun + 1 }) hm hs
    · rw [pollFailed_third (by rw [board, hb]) (by rw [board]; omega)]
      obtain ⟨z, hz, changed⟩ := (h.update fun b => { b with missRun := b.missRun + 1 }).drop rfl .absent
      exact hz ▸ (FailureEnded.of_changed changed).stands (losing_stands i z)
  | unknown | absent | mismatch =>
    rw [pollFailed_other (by rw [board, hb]; decide) (by rw [board, hb]; decide)]
    exact .of_over h hm hs

/-- A failed CENSUS exchange (R122, R123). -/
theorem censusFailed_ended : FailureEnded s i b (censusFailed i u) := by
  have board := h.board
  have attempted : b.attempted.misses = b.misses ∧ b.attempted.bads = b.bads ∧ b.attempted.toggle = b.toggle := by
    unfold BoardLink.attempted
    split <;> exact ⟨rfl, rfl, rfl⟩
  by_cases third : u.lc.boards[i].state = .unknown ∧ 3 ≤ u.lc.boards[i].attempts + 1
  · rw [censusFailed_third third.1 third.2]
    obtain ⟨z, hz, changed⟩ := (h.update BoardLink.attempted).drop rfl .absent
    exact hz ▸ (FailureEnded.of_changed changed attempted).stands (losing_stands i z)
  · rw [censusFailed_other third]
    exact .of_over (h.update BoardLink.attempted) hm ((attempted_state b).trans hs) attempted

omit h hm hs in
theorem exchangeFailed_poll {frame : LinkFrame} (hf : frame ≠ .census) : exchangeFailed i frame u = pollFailed i u := by
  cases frame with
  | census => exact absurd rfl hf
  | pollJamb => rfl
  | pollChest => rfl

theorem exchangeFailed_ended (frame : LinkFrame) : FailureEnded s i b (exchangeFailed i frame u) := by
  by_cases hf : frame = .census
  · rw [hf]
    exact censusFailed_ended h hm hs
  · rw [exchangeFailed_poll hf]
    exact pollFailed_ended h hm hs

end

/-- An exchange that fails as a miss or as a bad reply: its counter goes up, and the failure takes its course (R126). -/
theorem exec_failed {s : State} {i : Fin 16} {frame : LinkFrame} {c : Instr} {missed : Bool} {b' : BoardLink}
    (hw : s.lc.exchange = .window i frame)
    (hc : (c = .replyTimeout ∧ missed = true) ∨ (c = .shortReply ∧ missed = false) ∨ (∃ bytes, c = .replyReceived bytes ∧
      missed = false ∧ judgeReply i (s.desc.board i) s.lc.boards[i].toggle frame bytes = .bad))
    (hb : b' = { s.lc.boards[i] with
      misses := if missed then min (s.lc.boards[i].misses + 1) (max s.lc.boards[i].misses 255) else s.lc.boards[i].misses
      bads := if missed then s.lc.boards[i].bads else min (s.lc.boards[i].bads + 1) (max s.lc.boards[i].bads 255) }) :
    ∃ u, ExchangeOver s i b' u ∧ u.lc.mirror.stale = true ∧
      exec c s = finish s (passOn i (exchangeFailed i frame u)) := by
  subst hb
  have idle := idleLine_over s i
  have missed_counted := idle.count fun b => { b with misses := saturate b.misses }
  have bad_counted := idle.count fun b => { b with bads := saturate b.bads }
  rw [saturate_eq] at missed_counted bad_counted
  obtain ⟨rfl, rfl⟩ | ⟨rfl, rfl⟩ | ⟨bytes, rfl, rfl, bad⟩ := hc
  · refine ⟨_, missed_counted, rfl, (?_ : execReplyTimeout s = _)⟩
    rw [execReplyTimeout, hw]
    rfl
  · refine ⟨_, bad_counted, rfl, (?_ : execShortReply s = _)⟩
    rw [execShortReply, hw]
    rfl
  · refine ⟨_, bad_counted, rfl, (?_ : execReplyReceived bytes s = _)⟩
    rw [execReplyReceived, hw]
    dsimp only
    rw [bad]
    rfl

end Sys2Proof.Machine

/-! ## What the end of an exchange hands on (R70, R106, R113, R122, R126, R128, R131) -/

namespace Sys2Proof.Machine

/-! ### Failures by the state of the board (R122, R123) -/

section
variable {s u : State} {i : Fin 16} {b : BoardLink} (h : ExchangeOver s i b u)
include h

theorem pollFailed_outcome :
    (b.state = .present → (pollFailed i u).visible =
      ((s.exchanged i { b with state := .suspect, missRun := 1 }).withBoardEntry i .present .suspect).visible) ∧
    (b.state = .suspect → b.missRun + 1 < 3 →
      (pollFailed i u).visible = (s.exchanged i { b with missRun := b.missRun + 1 }).visible) ∧
    (b.state = .suspect → 3 ≤ b.missRun + 1 → ∃ z : State, pollFailed i u = z.losing i ∧
      z.visible = ((s.exchanged i { b with
        state := .absent, missRun := b.missRun + 1, outgoing := [], openFrame := none }).withBoardEntry i
          .suspect .absent).visible) ∧
    (b.state ≠ .present → b.state ≠ .suspect → (pollFailed i u).visible = (s.exchanged i b).visible) := by
  have board := h.board
  have again := h.update fun b => { b with missRun := b.missRun + 1 }
  refine ⟨fun hb => ?_, fun hb hrun => ?_, fun hb hrun => ?_, fun hp hs => ?_⟩
  · rw [pollFailed_present (by rw [board, hb])]
    exact ((h.update fun b => { b with missRun := 1 }).change hb .suspect).visible
  · rw [pollFailed_again (by rw [board, hb]) (by rwa [board])]
    exact again.visible
  · rw [pollFailed_third (by rw [board, hb]) (by rwa [board])]
    obtain ⟨z, hz, changed⟩ := again.drop hb .absent
    exact ⟨z, hz, changed.visible⟩
  · rw [pollFailed_other (by rwa [board]) (by rwa [board])]
    exact h.visible

theorem censusFailed_outcome :
    (b.state = .unknown → b.attempts + 1 < 3 →
      (censusFailed i u).visible = (s.exchanged i { b with attempts := b.attempts + 1 }).visible) ∧
    (b.state = .unknown → 3 ≤ b.attempts + 1 → ∃ z : State, censusFailed i u = z.losing i ∧
      z.visible = ((s.exchanged i { b with
        state := .absent, attempts := b.attempts + 1, outgoing := [], openFrame := none }).withBoardEntry i
          .unknown .absent).visible) ∧
    (b.state ≠ .unknown → (censusFailed i u).visible = (s.exchanged i b).visible) := by
  have board := h.board
  have tried := h.update BoardLink.attempted
  refine ⟨fun hb ha => ?_, fun hb ha => ?_, fun hb => ?_⟩
  · rw [censusFailed_other (by rw [board]; omega), tried.visible, attempted_of_unknown hb]
  · rw [censusFailed_third (by rw [board, hb]) (by rwa [board])]
    rw [attempted_of_unknown hb] at tried
    obtain ⟨z, hz, changed⟩ := tried.drop hb .absent
    exact ⟨z, hz, changed.visible⟩
  · rw [censusFailed_other (by rw [board]; exact fun k => hb k.1), tried.visible, attempted_of_known hb]

end

/-! ### The pulses of acknowledged commands (R106) -/

/-- An entry as the acknowledgement of these commands leaves it: a SENT entry of one of them is PULSING. -/
def MotionEntry.acknowledged (s : State) (commands : List CoilCommand) (e : MotionEntry) : MotionEntry :=
  if e.state = .sent ∧ e.stop ∈ commands.map CoilCommand.stop then
    { e with state := .pulsing (s.clock + BitVec.ofNat 32 (s.desc.stop e.stop).pulse) } else e

theorem foldl_startPulse (commands : List CoilCommand) (s : State) : commands.foldl startPulse s =
    { s with ms := { s.ms with queue := s.ms.queue.map (MotionEntry.acknowledged s commands) } } := by
  induction commands generalizing s with
  | nil =>
    have unchanged : MotionEntry.acknowledged s [] = id := by
      funext e
      simp [MotionEntry.acknowledged]
    rw [unchanged, List.map_id]
    rfl
  | cons c commands ih =>
    have entry : ∀ e : MotionEntry, MotionEntry.acknowledged s commands (if e.stop == c.stop then
          (if e.state = .sent then { e with state := .pulsing (s.after (s.desc.stop c.stop).pulse) } else e) else e) =
        MotionEntry.acknowledged s (c :: commands) e := fun e => by
      by_cases hc : e.stop = c.stop
      · by_cases sent : e.state = .sent <;> simp [MotionEntry.acknowledged, hc, sent, State.after]
      · simp [MotionEntry.acknowledged, hc]
    have queue : (startPulse s c).ms.queue.map (MotionEntry.acknowledged s commands) =
        s.ms.queue.map (MotionEntry.acknowledged s (c :: commands)) :=
      List.map_map.trans (List.map_congr_left fun e _ => entry e)
    rw [List.foldl_cons, ih, ← queue]
    rfl

theorem startPulses_eq (commands : List CoilCommand) (s : State) : startPulses commands s =
    examineDispatch { s with ms := { s.ms with queue := s.ms.queue.map (MotionEntry.acknowledged s commands) } } :=
  congrArg examineDispatch (foldl_startPulse commands s)

theorem examineDispatch_exchange (s : State) : (examineDispatch s).lc.exchange = s.lc.exchange := by
  unfold examineDispatch
  split <;> rfl

/-- Dispatch, as far as it is visible, is a matter of what is visible (R103). -/
theorem examineDispatch_visible_congr {s t : State} (h : s.visible = t.visible) :
    (examineDispatch s).visible = (examineDispatch t).visible := by
  have through : ∀ u : State, (examineDispatch u).visible = (examineDispatch u.visible).visible := fun u => by
    unfold examineDispatch
    show State.visible (if u.part = .running then _ else _) = State.visible (if u.part = .running then _ else _)
    split <;> rfl
  rw [through s, through t, h]

theorem startPulses_visible_congr {s t : State} (h : s.visible = t.visible) (commands : List CoilCommand) :
    (startPulses commands s).visible = (startPulses commands t).visible := by
  rw [startPulses_eq, startPulses_eq]
  exact examineDispatch_visible_congr (congrArg (fun u : State => ({ u with ms := { u.ms with
    queue := u.ms.queue.map (MotionEntry.acknowledged u commands) } } : State)) h :)

/-! ### An acknowledging POLL reply (R128) -/

/-- The values of a board whose commands have been acknowledged (R128, step 1). -/
def BoardLink.acknowledged (commands : List CoilCommand) (b : BoardLink) : BoardLink :=
  { b with outgoing := b.outgoing.drop commands.length, toggle := !b.toggle, openFrame := none, missRun := 0 }

/-- The state once the commands of a frame have left their board's list and their pulses have started (R106, R128). -/
def pulsesStarted (i : Fin 16) (commands : List CoilCommand) (s : State) : State :=
  startPulses commands (markStale s (updateBoard i (BoardLink.acknowledged commands) s))

/-- A SUSPECT board whose exchange was acknowledged is PRESENT again (R128, step 3). -/
def returned (i : Fin 16) (suspect : Bool) (s : State) : State := if suspect then changeBoard i .present s else s

/-- The samples that a POLL reply carries, handed on (R128, step 4). -/
def samplesTaken (i : Fin 16) (rec : BoardRec) (r : PollReply) (s : State) : State :=
  let s₁ := if rec.kind = .jamb then contactSample i r.levels s else s
  if rec.kind = .jamb ∧ rec.shoe = true then shoeSample r.shoeValid r.shoe s₁ else s₁

theorem pollAcknowledged_eq {i : Fin 16} {r : PollReply} {s : State} {commands : List CoilCommand}
    (h : commands = match s.lc.boards[i].openFrame with
      | some o => o.commands
      | none => []) : pollAcknowledged i r s =
    samplesTaken i (s.desc.board i) r
      (returned i (decide (s.lc.boards[i].state = .suspect)) (pulsesStarted i commands s)) := by
  subst h
  unfold samplesTaken returned
  simp only [decide_eq_true_eq, pollAcknowledged, pulsesStarted, Desc.isShoeBoard, Bool.and_eq_true, beq_iff_eq]
  rfl

theorem samplesTaken_stands (i : Fin 16) (rec : BoardRec) (r : PollReply) (s : State) :
    LinkStands s (samplesTaken i rec r s) := by
  have contacts : LinkStands s (if rec.kind = .jamb then contactSample i r.levels s else s) := by
    split
    · exact contactSample_stands ..
    · exact .refl s
  unfold samplesTaken
  dsimp only
  split
  · exact contacts.trans (.of_same (ps := [.cu, .ru]) (by simp))
  · exact contacts

section
variable {s : State} {i : Fin 16} {commands : List CoilCommand}

theorem pulsesStarted_visible : (pulsesStarted i commands (idleLine s)).visible =
    (startPulses commands (s.exchanged i (s.lc.boards[i].acknowledged commands))).visible :=
  startPulses_visible_congr (.trans (visible_markStale ..)
    ((idleLine_over s i).update (BoardLink.acknowledged commands)).visible) commands

theorem pulsesStarted_stands : LinkStands (updateBoard i (BoardLink.acknowledged commands) (idleLine s))
    (pulsesStarted i commands (idleLine s)) := (markStale_stands _ _).trans (startPulses_stands ..)

/-- The exchange is over once the pulses have started, and the board has its state of before. -/
theorem pulsesStarted_over : ExchangeOver (pulsesStarted i commands (idleLine s)) i
      (pulsesStarted i commands (idleLine s)).lc.boards[i] (pulsesStarted i commands (idleLine s)) ∧
    (pulsesStarted i commands (idleLine s)).lc.boards[i].state = s.lc.boards[i].state ∧
    (pulsesStarted i commands (idleLine s)).lc.mirror =
      { s.lc.mirror with stale := (pulsesStarted i commands (idleLine s)).lc.mirror.stale } := by
  have stands := pulsesStarted_stands (s := s) (i := i) (commands := commands)
  have board := ((idleLine_over s i).update (BoardLink.acknowledged commands)).board
  refine ⟨.of_idle i ?_, ?_, stands.mirror⟩
  · rw [pulsesStarted, startPulses_eq, examineDispatch_exchange]
    rfl
  · refine .trans (congrArg BoardLink.state (stands.board i) :) ?_
    rw [board]
    rfl

/-- The return of a SUSPECT board to PRESENT is journaled and recorded for BRD (R128, R132). -/
theorem returned_changed (suspect : s.lc.boards[i].state = .suspect) :
    BoardChanged (pulsesStarted i commands (idleLine s)) i
      { (pulsesStarted i commands (idleLine s)).lc.boards[i] with state := .present } .suspect .present
      (returned i (decide (s.lc.boards[i].state = .suspect)) (pulsesStarted i commands (idleLine s))) := by
  obtain ⟨idle, state, -⟩ := pulsesStarted_over (s := s) (i := i) (commands := commands)
  rw [returned, if_pos (decide_eq_true suspect)]
  exact idle.change (state.trans suspect) .present

theorem returned_ended (suspect : s.lc.boards[i].state = .suspect) :
    ExchangeEnded s i { (pulsesStarted i commands (idleLine s)).lc.boards[i] with state := .present }
      (returned i (decide (s.lc.boards[i].state = .suspect)) (pulsesStarted i commands (idleLine s))) := by
  obtain ⟨-, -, mirror⟩ := pulsesStarted_over (s := s) (i := i) (commands := commands)
  have changed := returned_changed (commands := commands) suspect
  refine ⟨?_, congrArg _ changed.board, fun _ => ⟨changed.changed, by rw [changed.mirror]⟩⟩
  rw [changed.mirror, mirror]

end

theorem exec_replyReceived {s : State} {i : Fin 16} {frame : LinkFrame} {bytes : List Byte} {j : Judgement}
    (hw : s.lc.exchange = .window i frame)
    (hj : judgeReply i (s.desc.board i) s.lc.boards[i].toggle frame bytes = j) :
    exec (.replyReceived bytes) s = finish s (passOn i (takeReply i frame j (idleLine s))) := by
  show execReplyReceived bytes s = _
  rw [execReplyReceived, hw]
  dsimp only
  rw [hj]

/-- No exchange that ends touches RESET#. -/
theorem passOn_takeReply_inReset (i : Fin 16) (frame : LinkFrame) (j : Judgement) (s : State) :
    (passOn i (takeReply i frame j (idleLine s))).inReset = s.inReset := by
  have same : Same [.clock, .clockZeroed, .part, .cause, .lc, .ms, .jw, .port, .cs, .ru, .ce, .sq, .rs, .cu] s
      (passOn i (takeReply i frame j (idleLine s))) := by simp
  exact (same.get .inReset).symm

/-! ### A CENSUS reply (R122) -/

theorem disagreement_eq (rec : BoardRec) (r : CensusReply) : rec.disagreement r =
    if r.kind ≠ rec.kind.code then .kind
    else if (rec.kind = .jamb ∧ (r.contacts < rec.contacts ∨ r.coils < rec.coils ∨ r.lamps < rec.lamps)) ∨
      (rec.kind = .chest ∧ r.chestBits < rec.chestBits) then .count
    else if rec.shoe = true ∧ r.shoe = false then .shoe else .none := by
  unfold BoardRec.disagreement
  simp only [Bool.not_eq_true]

section
variable {u : State} {i : Fin 16} {r : CensusReply}

theorem censusReplied_agrees (why : (u.desc.board i).disagreement r = .none)
    (h : u.lc.boards[i].state = .unknown ∨ u.lc.boards[i].state = .absent ∨ u.lc.boards[i].state = .mismatch) :
    censusReplied i r u = admitBoard i r (updateBoard i BoardLink.attempted u) := by
  unfold censusReplied
  obtain h | h | h := h <;> rw [h] <;> exact if_pos why

theorem censusReplied_disagrees (why : (u.desc.board i).disagreement r ≠ .none)
    (h : u.lc.boards[i].state = .unknown ∨ u.lc.boards[i].state = .absent) : censusReplied i r u =
      dropBoard i .mismatch (updateBoard i (fun b => { b with reason := (u.desc.board i).disagreement r })
        (updateBoard i BoardLink.attempted u)) := by
  unfold censusReplied
  obtain h | h := h <;> rw [h] <;> exact if_neg why

theorem censusReplied_still (why : (u.desc.board i).disagreement r ≠ .none) (h : u.lc.boards[i].state = .mismatch) :
    censusReplied i r u = updateBoard i (fun b => { b with reason := (u.desc.board i).disagreement r })
      (updateBoard i BoardLink.attempted u) := by
  unfold censusReplied
  rw [h]
  exact if_neg why

theorem censusReplied_taking (h : u.lc.boards[i].state = .present ∨ u.lc.boards[i].state = .suspect) :
    censusReplied i r u = updateBoard i BoardLink.attempted u := by
  unfold censusReplied
  obtain h | h := h <;> rw [h]

/-- A board that a CENSUS reply makes PRESENT: its levels are adopted and the board regained once its own values are
set (R88, R114, R122). -/
theorem ExchangeOver.becomePresent {s : State} {b : BoardLink} (h : ExchangeOver s i b u) : ∃ z,
    admitBoard i r u = (if (s.desc.board i).kind = .jamb then regainBoard i (adoptContacts i r.levels z) else z) ∧
    BoardChanged s i
      { b with state := .present, reason := .none, toggle := !r.lastToggle, openFrame := none, missRun := 0 }
      b.state .present z := by
  have desc : s.desc = u.desc := (congrArg (fun x : State => x.desc) h.visible :).symm
  refine ⟨_, ?_, (h.update fun b =>
    { b with reason := .none, toggle := !r.lastToggle, openFrame := none, missRun := 0 }).change rfl .present⟩
  rw [desc]
  rfl

end

theorem regained_stands (i : Fin 16) (rec : BoardRec) (levels : BitVec 64) (z : State) :
    LinkStands z (if rec.kind = .jamb then regainBoard i (adoptContacts i levels z) else z) := by
  split
  · exact LinkStands.trans (t := adoptContacts i levels z) (.of_lc rfl) (regainBoard_stands i _)
  · exact .refl z

section
variable {s u : State} {i : Fin 16} {b : BoardLink} (h : ExchangeOver s i b u) (r : CensusReply)
include h

theorem censusReplied_ended (hs : b.state = s.lc.boards[i].state) :
    ∃ b', ExchangeEnded s i b' (censusReplied i r u) := by
  have board := h.board
  have tried := h.update BoardLink.attempted
  have tried_state := (attempted_state b).trans hs
  by_cases why : (u.desc.board i).disagreement r = .none
  · cases hb : b.state with
    | unknown | absent | mismatch =>
      rw [censusReplied_agrees why (by rw [board, hb]; decide)]
      obtain ⟨z, hz, changed⟩ := tried.becomePresent (r := r)
      exact ⟨_, hz ▸ changed.ended.stands (regained_stands ..)⟩
    | present | suspect =>
      rw [censusReplied_taking (by rw [board, hb]; decide)]
      exact ⟨_, tried.ended tried_state⟩
  · have judged := tried.update fun b => { b with reason := (u.desc.board i).disagreement r }
    cases hb : b.state with
    | unknown | absent =>
      rw [censusReplied_disagrees why (by rw [board, hb]; decide)]
      obtain ⟨z, hz, changed⟩ := judged.drop rfl .mismatch
      exact ⟨_, hz ▸ changed.ended.stands (losing_stands i z)⟩
    | mismatch =>
      rw [censusReplied_still why (by rw [board, hb])]
      exact ⟨_, judged.ended tried_state⟩
    | present | suspect =>
      rw [censusReplied_taking (by rw [board, hb]; decide)]
      exact ⟨_, tried.ended tried_state⟩

/-- What a CENSUS reply makes of its board, by the board's state and the reply's disagreement with its record (R122). -/
theorem censusReplied_outcome {why : MismatchReason} (hwhy : why = (s.desc.board i).disagreement r) :
    (b.state = .present ∨ b.state = .suspect → (censusReplied i r u).visible = (s.exchanged i b.attempted).visible) ∧
    (b.state = .unknown ∨ b.state = .absent ∨ b.state = .mismatch → why = .none →
      ∃ z : State, censusReplied i r u =
          (if (s.desc.board i).kind = .jamb then regainBoard i (adoptContacts i r.levels z) else z) ∧
        z.visible = ((s.exchanged i { b.attempted with
          state := .present, reason := .none, toggle := !r.lastToggle, openFrame := none, missRun := 0 }).withBoardEntry
            i b.state .present).visible) ∧
    (b.state = .unknown ∨ b.state = .absent → why ≠ .none →
      ∃ z : State, censusReplied i r u = z.losing i ∧ z.visible = ((s.exchanged i { b.attempted with
        state := .mismatch, reason := why, outgoing := [], openFrame := none }).withBoardEntry i
          b.state .mismatch).visible) ∧
    (b.state = .mismatch → why ≠ .none →
      (censusReplied i r u).visible = (s.exchanged i { b.attempted with reason := why }).visible) := by
  have board := h.board
  have tried := h.update BoardLink.attempted
  have desc : s.desc = u.desc := (congrArg (fun x : State => x.desc) h.visible :).symm
  have judged := tried.update fun b => { b with reason := why }
  have hwhy' : why = (u.desc.board i).disagreement r := desc ▸ hwhy
  refine ⟨fun hb => ?_, fun hb agrees => ?_, fun hb differs => ?_, fun hb differs => ?_⟩
  · rw [censusReplied_taking (by rwa [board]), tried.visible]
  · rw [censusReplied_agrees (hwhy'.symm.trans agrees) (by rwa [board])]
    obtain ⟨z, hz, changed⟩ := tried.becomePresent (r := r)
    exact ⟨z, hz, attempted_state b ▸ changed.visible⟩
  · rw [censusReplied_disagrees (hwhy' ▸ differs) (by rwa [board]), ← hwhy']
    obtain ⟨z, hz, changed⟩ := judged.drop (attempted_state b) .mismatch
    exact ⟨z, hz, changed.visible⟩
  · rw [censusReplied_still (hwhy' ▸ differs) (by rwa [board]), ← hwhy']
    exact judged.visible

end

end Sys2Proof.Machine

/-! ## When a reply acknowledges, and the replies that boards send (R119 to R121, R126, R164) -/

namespace Sys2Proof.Machine

/-! ### Numbers in bytes, high byte first -/

theorem bytesBE_length (n x : Nat) : (bytesBE n x).length = n := by simp [bytesBE]

theorem natBE_bytesBE {n x : Nat} (h : x < 256 ^ n) : natBE (bytesBE n x) = x := by
  rw [natBE, bytesBE, List.reverse_reverse, natLE_bytesLE, Nat.mod_eq_of_lt h]

/-! ### The judgement on a reply (R126) -/

theorem replyLength_poll (frame : LinkFrame) {bytes : List Byte} (h : bytes.getD 1 0 = 0x81) :
    replyLength frame bytes = 18 := if_pos h

theorem replyLength_census {bytes : List Byte} (h : bytes.getD 1 0 = 0x82) : replyLength .census bytes = 20 := by
  rw [replyLength, h]
  rfl

theorem isCensus_of_ne {frame : LinkFrame} (h : frame ≠ .census) : frame.isCensus = false := by
  cases frame with
  | census => exact absurd rfl h
  | pollJamb => rfl
  | pollChest => rfl

/-- A POLL reply acknowledges exactly where its check, its address, its kind and its echo are right (R126). -/
theorem judgeReply_poll_iff (i : Fin 16) (rec : BoardRec) (toggle : Bool) {frame : LinkFrame} {bytes : List Byte}
    (hf : frame ≠ .census) (hl : bytes.length = 18) (ht : bytes.getD 1 0 = 0x81) :
    judgeReply i rec toggle frame bytes = .poll (pollReplyOf bytes) ↔
      (frameCheck (bytes.take 16)).toNat = natBE (bytes.drop 16) ∧ (bytes.getD 0 0).toNat = i.val + 1 ∧
        (bytes.getD 2 0).toNat = rec.kind.code ∧ (bytes.getD 3 0 != 0) = toggle := by
  have whole : bytes.take 18 = bytes := List.take_of_length_le (by omega)
  have check : replyCheckOk bytes 18 = decide ((frameCheck (bytes.take 16)).toNat = natBE (bytes.drop 16)) := by
    rw [Bool.eq_iff_iff]
    simp [replyCheckOk, hl]
  have echo : (pollReplyOf bytes).echo = (bytes.getD 3 0 != 0) := by
    rw [Bool.eq_iff_iff]
    simp [pollReplyOf, byteAt, ← BitVec.toNat_inj]
  have kind : (pollReplyOf bytes).kind = (bytes.getD 2 0).toNat := rfl
  unfold judgeReply
  dsimp only
  rw [replyLength_poll frame ht, whole, check, isCensus_of_ne hf, ht, echo, kind, byteAt]
  split_ifs <;> simp_all [boardAddress, pollReplyType]

/-- A CENSUS reply to a CENSUS request is judged by its check and its address (R126). -/
theorem judgeReply_census {i : Fin 16} (rec : BoardRec) (toggle : Bool) {bytes : List Byte} (hl : bytes.length = 20)
    (ht : bytes.getD 1 0 = 0x82) (hc : (frameCheck (bytes.take 18)).toNat = natBE (bytes.drop 18))
    (ha : (bytes.getD 0 0).toNat = i.val + 1) :
    judgeReply i rec toggle .census bytes = .census (censusReplyOf bytes) := by
  have whole : bytes.take 20 = bytes := List.take_of_length_le (by omega)
  have check : replyCheckOk bytes 20 = true := by simp [replyCheckOk, hl, hc]
  unfold judgeReply
  dsimp only
  rw [replyLength_census ht, whole, check, ht, byteAt, ha]
  simp [boardAddress, censusReplyType, LinkFrame.isCensus]

/-! ### The replies of boards (R119, R121) -/

/-- A body with its check carries the right check (R120). -/
theorem check_of_body {body : List Byte} {n : Nat} (h : body.length = n) :
    (frameCheck ((body ++ bytesBE 2 (frameCheck body).toNat).take n)).toNat =
      natBE ((body ++ bytesBE 2 (frameCheck body).toNat).drop n) := by
  subst h
  rw [List.take_left, List.drop_left, natBE_bytesBE (frameCheck body).isLt]

theorem contactLevels_bytesLE (levels : BitVec 64) : contactLevels (bytesLE 8 levels.toNat) = levels := by
  have small : levels.toNat < 256 ^ 8 := lt_of_lt_of_eq levels.isLt (pow_mul 2 8 8)
  rw [contactLevels, natLE_bytesLE, Nat.mod_eq_of_lt small, BitVec.ofNat_toNat, BitVec.setWidth_eq]

theorem flagByte (b : Bool) : ((BitVec.ofNat 8 b.toNat).toNat != 0) = b := by cases b <;> rfl

theorem kindByte (k : BoardKind) : (BitVec.ofNat 8 k.code).toNat = k.code := by cases k <;> rfl

theorem addressByte (i : Fin 16) : (BitVec.ofNat 8 (boardAddress i)).toNat = i.val + 1 := by
  rw [BitVec.toNat_ofNat, boardAddress]
  omega

theorem smallByte {n : Nat} (h : n < 256) : (BitVec.ofNat 8 n).toNat = n := by
  rw [BitVec.toNat_ofNat]
  omega

theorem sent_kind (d : BoardReading) : d.sent.kind = d.kind := by
  unfold BoardReading.sent
  split <;> rfl

theorem poll_body_length (i : Fin 16) (d : BoardReading) (echo : Bool) : ((BoardReply.poll echo).body i d).length = 16 := by
  simp [BoardReply.body, bytesBE_length]

theorem census_body_length (i : Fin 16) (d : BoardReading) (last : Bool) :
    ((BoardReply.census last).body i d).length = 18 := by
  simp [BoardReply.body, bytesBE_length]

/-- What a POLL reply of a board says (R121, R164). -/
theorem pollReplyOf_body (i : Fin 16) {d : BoardReading} (echo : Bool) (check : List Byte) (hs : d.sample < 65536) :
    pollReplyOf ((BoardReply.poll echo).body i d ++ check) = ⟨d.kind.code, echo, d.levels, d.shoeValid, d.sample⟩ := by
  have fields : pollReplyOf ((BoardReply.poll echo).body i d ++ check) =
      ⟨(BitVec.ofNat 8 d.kind.code).toNat, (BitVec.ofNat 8 echo.toNat).toNat != 0,
        contactLevels (bytesLE 8 d.levels.toNat), (BitVec.ofNat 8 d.shoeValid.toNat).toNat != 0,
        natBE (bytesBE 2 d.sample)⟩ := rfl
  rw [fields, kindByte, flagByte, contactLevels_bytesLE, flagByte, natBE_bytesBE hs]

/-- What a CENSUS reply of a board says (R121, R164). -/
theorem censusReplyOf_body (i : Fin 16) {d : BoardReading} (last : Bool) (check : List Byte) (hc : d.contacts < 256)
    (ho : d.coils < 256) (hl : d.lamps < 256) (hb : d.chestBits < 65536) :
    censusReplyOf ((BoardReply.census last).body i d ++ check) =
      ⟨d.kind.code, last, d.contacts, d.coils, d.lamps, d.shoe, d.chestBits, d.levels⟩ := by
  have fields : censusReplyOf ((BoardReply.census last).body i d ++ check) =
      ⟨(BitVec.ofNat 8 d.kind.code).toNat, (BitVec.ofNat 8 last.toNat).toNat != 0, (BitVec.ofNat 8 d.contacts).toNat,
        (BitVec.ofNat 8 d.coils).toNat, (BitVec.ofNat 8 d.lamps).toNat, (BitVec.ofNat 8 d.shoe.toNat).toNat != 0,
        natBE (bytesBE 2 d.chestBits), contactLevels (bytesLE 8 d.levels.toNat)⟩ := rfl
  rw [fields, kindByte, flagByte, smallByte hc, smallByte ho, smallByte hl, flagByte, natBE_bytesBE hb,
    contactLevels_bytesLE]

/-- What a board puts in its reply: a CHEST board 0 in the contact levels and the shoe fields (R119). -/
theorem sent_eq (d : BoardReading) : d.sent = { d with
    shoe := if d.kind = .chest then false else d.shoe
    levels := if d.kind = .chest then 0 else d.levels
    shoeValid := if d.kind = .chest then false else d.shoeValid
    sample := if d.kind = .chest then 0 else d.sample } := by
  unfold BoardReading.sent
  split <;> rfl

/-- The reply that a POLL makes a board send acknowledges it (R121, R126). -/
theorem judgeReply_poll_of_board (i : Fin 16) {rec : BoardRec} {d : BoardReading} (toggle : Bool) {frame : LinkFrame}
    (hf : frame ≠ .census) (hk : d.kind = rec.kind) (hs : d.sample < 65536) :
    judgeReply i rec toggle frame ((BoardReply.poll toggle).bytes i d) =
      .poll (if d.kind = .chest then ⟨d.kind.code, toggle, 0, false, 0⟩
        else ⟨d.kind.code, toggle, d.levels, d.shoeValid, d.sample⟩) := by
  have sample : d.sent.sample < 65536 := by
    rw [sent_eq]
    dsimp only
    split
    · omega
    · exact hs
  have length : ((BoardReply.poll toggle).bytes i d).length = 18 := by
    rw [BoardReply.bytes, List.length_append, poll_body_length, bytesBE_length]
  have fields : pollReplyOf ((BoardReply.poll toggle).bytes i d) = _ := pollReplyOf_body i toggle _ sample
  have echo : ((BitVec.ofNat 8 toggle.toNat : Byte) != 0) = toggle := by cases toggle <;> rfl
  rw [(judgeReply_poll_iff i rec toggle hf length rfl).2 ⟨check_of_body (poll_body_length ..), addressByte i,
    .trans (kindByte d.sent.kind) (by rw [sent_kind, hk]), echo⟩, fields, sent_eq]
  split <;> rfl

/-- The reply that a CENSUS makes a board send is judged as it stands (R121, R126). -/
theorem judgeReply_census_of_board (i : Fin 16) (rec : BoardRec) {d : BoardReading} (toggle last : Bool)
    (hc : d.contacts < 256) (ho : d.coils < 256) (hl : d.lamps < 256) (hb : d.chestBits < 65536) :
    judgeReply i rec toggle .census ((BoardReply.census last).bytes i d) =
      .census ⟨d.kind.code, last, d.contacts, d.coils, d.lamps, if d.kind = .chest then false else d.shoe, d.chestBits,
        if d.kind = .chest then 0 else d.levels⟩ := by
  have length : ((BoardReply.census last).bytes i d).length = 20 := by
    rw [BoardReply.bytes, List.length_append, census_body_length, bytesBE_length]
  have fields : censusReplyOf ((BoardReply.census last).bytes i d) = _ :=
    censusReplyOf_body i (d := d.sent) last _ (by rwa [sent_eq]) (by rwa [sent_eq]) (by rwa [sent_eq]) (by rwa [sent_eq])
  rw [judgeReply_census rec toggle length rfl (check_of_body (census_body_length ..)) (addressByte i), fields, sent_eq]

/-! ### The settled statement -/

/-- What an ended exchange has marked and recorded stands to the end of its command. -/
theorem FailureEnded.to_end {s w t : State} {i : Fin 16} {b : BoardLink} (h : FailureEnded s i b w)
    (reset : (passOn i w).inReset = s.inReset) (ht : finish s (passOn i w) = .next t) :
    (s.inReset = false → s.lc.mirror.isMarked t.lc.mirror t.linkValues) ∧ t.lc.boards[i].misses = b.misses ∧
      t.lc.boards[i].bads = b.bads ∧ t.lc.boards[i].toggle = b.toggle ∧
      (w.lc.boards[i].state ≠ s.lc.boards[i].state → BoardChangeRecorded s t) := by
  have passed := h.stands (passOn_stands i w)
  obtain ⟨misses, bads, toggle⟩ := passed.counters
  obtain ⟨b₂, ended, -⟩ := h.ended
  have ended_on := ended.stands (passOn_stands i w)
  obtain ⟨boards, -⟩ := link_of_visible (finish_visible ht)
  rw [← boards] at misses bads toggle
  refine ⟨fun hr => finish_link_isMarked (reset.trans hr) ht ?_, misses, bads, toggle, fun hne => ?_⟩
  · rw [ended_on.mirror, passed.stale]
  · exact ended_on.recorded_of_finish ht reset (ended.state ▸ hne)

/-- An exchange that fails, to the end of its command. -/
theorem exec_failed_to_end {s : State} {i : Fin 16} {frame : LinkFrame} {c : Instr} {missed : Bool} {b' : BoardLink}
    (hw : s.lc.exchange = .window i frame)
    (hc : (c = .replyTimeout ∧ missed = true) ∨ (c = .shortReply ∧ missed = false) ∨ (∃ bytes, c = .replyReceived bytes ∧
      missed = false ∧ judgeReply i (s.desc.board i) s.lc.boards[i].toggle frame bytes = .bad))
    (hb : b' = { s.lc.boards[i] with
      misses := if missed then min (s.lc.boards[i].misses + 1) (max s.lc.boards[i].misses 255) else s.lc.boards[i].misses
      bads := if missed then s.lc.boards[i].bads else min (s.lc.boards[i].bads + 1) (max s.lc.boards[i].bads 255) }) :
    ∃ u t, ExchangeOver s i b' u ∧ FailureEnded s i b' (exchangeFailed i frame u) ∧
      (passOn i (exchangeFailed i frame u)).inReset = s.inReset ∧
      exec c s = .next t ∧ finish s (passOn i (exchangeFailed i frame u)) = .next t := by
  obtain ⟨u, idle, stale, run⟩ := exec_failed hw hc hb
  obtain ⟨t, ht, -⟩ := finish_completes s (passOn i (exchangeFailed i frame u))
  have same : Same [.clock, .clockZeroed, .part, .cause, .lc, .ms, .jw, .port, .rs, .ce, .sq, .cu] u
    (passOn i (exchangeFailed i frame u)) := by simp
  exact ⟨u, t, idle, exchangeFailed_ended idle stale (by rw [hb]) frame,
    .trans (same.get .inReset : _ = _).symm (congrArg State.inReset idle.visible :), run.trans ht, ht⟩

/-- A POLL reply that acknowledges, to the end of its command (R128). -/
theorem exec_acknowledged {s : State} {i : Fin 16} {frame : LinkFrame} {bytes : List Byte} {r : PollReply}
    {commands : List CoilCommand} (hw : s.lc.exchange = .window i frame)
    (hj : judgeReply i (s.desc.board i) s.lc.boards[i].toggle frame bytes = .poll r)
    (hcommands : commands = match s.lc.boards[i].openFrame with
      | some o => o.commands
      | none => []) {y : State}
    (hy : y = returned i (decide (s.lc.boards[i].state = .suspect)) (pulsesStarted i commands (idleLine s))) :
    ∃ t, exec (.replyReceived bytes) s = .next t ∧
      t.visible = (passOn i (samplesTaken i (s.desc.board i) r y)).visible ∧
      (s.lc.boards[i].state = .suspect → BoardChangeRecorded s t) := by
  have acknowledged : takeReply i frame (.poll r) (idleLine s) = samplesTaken i (s.desc.board i) r y :=
    hy ▸ pollAcknowledged_eq (s := idleLine s) hcommands
  have reset := passOn_takeReply_inReset i frame (.poll r) s
  have run := exec_replyReceived hw hj
  rw [acknowledged] at reset run
  obtain ⟨t, ht, hv⟩ := finish_completes s (passOn i (samplesTaken i (s.desc.board i) r y))
  refine ⟨t, run.trans ht, hv, fun suspect => ?_⟩
  have ended := ((hy ▸ returned_ended suspect).stands (samplesTaken_stands i (s.desc.board i) r y)).stands
    (passOn_stands i _)
  exact ended.recorded_of_finish ht reset (suspect ▸ (by decide : BoardState.present ≠ .suspect))

/-- A CENSUS reply, to the end of its command (R122). -/
theorem exec_censusReplied {s : State} {i : Fin 16} {bytes : List Byte} {r : CensusReply}
    (hw : s.lc.exchange = .window i .census)
    (hj : judgeReply i (s.desc.board i) s.lc.boards[i].toggle .census bytes = .census r) :
    ∃ t, exec (.replyReceived bytes) s = .next t ∧
      t.visible = (passOn i (censusReplied i r (idleLine s))).visible ∧
      ((censusReplied i r (idleLine s)).lc.boards[i].state ≠ s.lc.boards[i].state → BoardChangeRecorded s t) := by
  have taken : takeReply i .census (.census r) (idleLine s) = censusReplied i r (idleLine s) := rfl
  have run := exec_replyReceived hw hj
  have reset := passOn_takeReply_inReset i .census (.census r) s
  rw [taken] at run reset
  obtain ⟨t, ht, hv⟩ := finish_completes s (passOn i (censusReplied i r (idleLine s)))
  obtain ⟨b, ended⟩ := censusReplied_ended (idleLine_over s i) r rfl
  refine ⟨t, run.trans ht, hv, fun hne => ?_⟩
  rw [ended.state] at hne
  exact (ended.stands (passOn_stands i _)).recorded_of_finish ht reset hne

/-- Settles O56: each command runs to its end (`exec_failed_to_end`, `exec_acknowledged`, `exec_censusReplied`), and what
it does to the board is `pollFailed_outcome`, `censusFailed_outcome`, `pulsesStarted_visible` with `returned_changed`, or
`censusReplied_outcome`. -/
theorem exchangesEnd : Obligations.ExchangesEnd := by
  refine ⟨fun s i frame c missed b b' hw hb hc hb' => ?_, fun s i frame bytes r b commands hw hb hj hcommands => ?_,
    fun s commands => startPulses_eq commands s, fun s i bytes r rec why b b' hw hrec hb hj hwhy hb' => ?_,
    fun i rec toggle frame bytes hf hl ht => judgeReply_poll_iff i rec toggle hf hl ht,
    fun i rec toggle d hk hs => ⟨fun frame b hf sends => ?_, fun b hc ho hl hbits =>
      ⟨_, rfl, judgeReply_census_of_board i rec toggle b.lastToggle hc ho hl hbits⟩⟩⟩
  · subst hb
    obtain ⟨u, t, idle, failed, reset, run, ht⟩ := exec_failed_to_end hw hc hb'
    obtain ⟨marked, misses, bads, toggle, recorded⟩ := failed.to_end reset ht
    subst hb'
    refine ⟨t, _, run, finish_visible ht, marked, misses, bads, toggle, recorded, fun hf => ?_, fun hf => ?_⟩
    · rw [exchangeFailed_poll hf]
      exact pollFailed_outcome idle
    · subst hf
      exact censusFailed_outcome idle
  · subst hb
    obtain ⟨t, run, hv, recorded⟩ := exec_acknowledged hw hj hcommands rfl
    refine ⟨t, _, _, run, pulsesStarted_visible, fun present => ?_,
      fun suspect => ⟨(returned_changed suspect).visible, recorded suspect⟩, fun contacts shoes hcontacts hshoes => ?_⟩
    · rw [returned, if_neg (by simpa using present)]
    · subst hcontacts hshoes
      exact hv
  · subst hb hrec
    obtain ⟨t, run, hv, recorded⟩ := exec_censusReplied hw hj
    have attempted : b' = s.lc.boards[i].attempted := hb'.trans (attempted_eq _).symm
    rw [attempted]
    exact ⟨t, _, run, hv, recorded,
      censusReplied_outcome (idleLine_over s i) r (hwhy.trans (disagreement_eq ..).symm)⟩
  · have replies : (b.receive frame).reply = some (.poll toggle) := by
      obtain ⟨commands, lamps, rfl⟩ | ⟨bits, rfl⟩ := sends <;> rfl
    exact ⟨_, replies, judgeReply_poll_of_board i toggle hf hk hs⟩

end Sys2Proof.Machine
